-- ==== Sys2Proof/Word.lean ====
section
/-! DEFINITION. The words of the gate: bytes, 16- and 32-bit words, and the index of each kind of object
(00_scope.md "Numbers and names", R166). -/

namespace Sys2Proof

abbrev Byte := BitVec 8
abbrev Word16 := BitVec 16
abbrev Word32 := BitVec 32

/-- A0 to A63. -/
abbrev AxisIx := Fin 64
/-- G0 to G7. -/
abbrev GroupIx := Fin 8
/-- P0 to P31. -/
abbrev PairIx := Fin 32
/-- Z0 to Z15. -/
abbrev ZoneIx := Fin 16
/-- E0 to E127. -/
abbrev ExtentIx := Fin 128
/-- SG0 to SG3. -/
abbrev SegIx := Fin 4
/-- IN0 to IN7. -/
abbrev LineIx := Fin 8

end Sys2Proof
end

