-- ==== Sys2Proof/Syntax.lean ====
section
/-! DEFINITION. The commands of the gate: one constructor for each row of spec/opcode_table.json.

A management request carries its operands in its frame, which waits in the request queue (R145, R146).
The command is the management unit's taking of that request, so it has no operand of its own.
The same holds for a frame that waits in a path (R162) and for a trip request in flight (R101). -/

namespace Sys2Proof

/-- The level of an input line (R122), in the order of R166. -/
inductive Level where
  | low
  | high
  deriving DecidableEq, Repr

/-- The blocks whose trip requests travel to the permit unit as events of their own (R100, R101).
The requests of the permit unit, the segment ports and the table store, and AXIS_LOST, are taken in the
event that makes them (R96, R97, R103, R107, R140). -/
inductive TripSender where
  /-- SUPERVISOR_LOST (R164). -/
  | clPort
  /-- DRIVE_FAULT, OVERTRAVEL, OVERSPEED, ZONE_INTRUSION and SKEW (R61 to R70). -/
  | sampleMonitor
  /-- INPUT and PROPAGATED (R121, R124). -/
  | tripUnit
  /-- INPUT of the trip unit's evaluation at a soft reset, which its reply precedes on CL (R125; log 20). -/
  | resetEvaluation
  deriving DecidableEq, Repr

/-- The commands, in the order of the table. -/
inductive Instr where
  /-- PIN_RESET: RST_N is asserted and released, with the lines at these levels at its end (R17, R125). -/
  | pinReset (pins : Vector Level 8)
  /-- CYCLE_START: the phase reaches the running period (R21). -/
  | cycleStart
  /-- AXIS_LOST: the miss count of the axis has reached its miss limit (R30). -/
  | axisLost (a : AxisIx)
  /-- PRIME_EXPIRED: the lapse counter of a PRIMED group has reached 0 (R97). -/
  | primeExpired (g : GroupIx)
  /-- LAPSED: the lapse counter of a LIVE group has reached 0 (R97). -/
  | lapsed (g : GroupIx)
  /-- NO_ECHO: the timeout count of a sent link check has reached 4 (R128). -/
  | noEcho (sg : SegIx)
  /-- CREEP_RUN_END: the elapsed count of a creep run has reached its duration (R133). -/
  | creepRunEnd (g : GroupIx)
  /-- SEGMENT_DOWN: the silence count of the segment has reached its limit (R160, R163). -/
  | segmentDown (sg : SegIx)
  /-- CL_DOWN: the silence count of CL has reached its limit (R160, R164). -/
  | clDown
  /-- CL_FRAME_RECEIVE: the link delivers these bytes and an end of frame on CL (R161, R162). -/
  | clFrameReceive (bytes : List Byte)
  /-- SEGMENT_FRAME_RECEIVE: the same on a segment (R161, R162). -/
  | segmentFrameReceive (sg : SegIx) (bytes : List Byte)
  /-- SETPOINT_POSITION: the admission unit takes the POSITION frame at the head of its path (R36). -/
  | setpointPosition
  /-- SETPOINT_HOLD: the admission unit takes the HOLD frame at the head of its path (R35). -/
  | setpointHold
  /-- SETPOINT_BRAKE: the admission unit takes the BRAKE frame at the head of its path (R35). -/
  | setpointBrake
  /-- SAMPLE: the sample monitor takes the frame at the head of the segment's path (R57). -/
  | sample (sg : SegIx)
  /-- ECHO: the check unit takes the frame at the head of the segment's path (R129). -/
  | echo (sg : SegIx)
  /-- TRIP_REQUEST: the permit unit takes the oldest request in flight from the sender (R101). -/
  | tripRequest (sender : TripSender)
  /-- INPUT_LEVEL_CHANGE: the trip unit takes a change of the line to the level (R122). -/
  | inputLevelChange (line : LineIx) (level : Level)
  /-- SEGMENT_TRANSMISSION_END: the segment's transmitter has sent its frame (R52). -/
  | segmentTransmissionEnd (sg : SegIx)
  /-- CL_TRANSMISSION_END: the CL transmitter has sent its frame or frames (R155). -/
  | clTransmissionEnd
  /-- UNKNOWN_REQUEST: unknown code, wrong parameter length or unknown table (R146). -/
  | unknownRequest
  | readEntryAxis
  | readEntryGroup
  | readEntryPair
  | readEntryExtent
  | readEntryZone
  | readEntryWaypoint
  | readEntryInput
  | readEntrySettings
  | readEntrySchedule
  | writeEntryAxis
  | writeEntryGroup
  | writeEntryPair
  | writeEntryExtent
  | writeEntryZone
  | writeEntryWaypoint
  | writeEntryInput
  | writeEntrySettings
  | writeEntrySchedule
  | permitKeyKArm
  | permitKeyKRun
  | permitKeyOther
  | park
  | forceTrip
  | clearTrip
  | claimZone
  | releaseZone
  | linkCheck
  | creepStart
  | creepStop
  | creepResult
  | loadSchedule
  | readTripRecord
  | rewindTripRecords
  | readStatus
  | clearCounters
  | softReset
  deriving DecidableEq, Repr

end Sys2Proof
end

