-- ==== Sys2Proof/Config.lean ====
section
/-! DEFINITION. The free values the spec leaves open, and the constants of the part.

A free value has no body, so no proof can see what it is.
Each is applied to the counter State.freeCount, so that every draw is a fresh value (log 22). -/

namespace Sys2Proof.Config

/-- The order in which a block, or the blocks at one event, take things where the spec gives no order
(log 5, 8, 15). The list may be anything: `Sys2Proof.Machine.orderOf` reads a permutation out of it. -/
opaque freeOrder : Nat → List Nat

/-- Which of several members is taken where the spec says it is not defined (R52; log 8). -/
opaque freeIndex : Nat → Nat

/-- Whether a line that becomes active in a race with the CLEAR_TRIP of a TRIPPED group, and comes first, sends the group
an INPUT request: R105 has the request reach the group, R124 sends it none, and the spec does not say which holds
(log 27). -/
opaque freeRequest : Nat → Bool

/-- The value of a byte whose value the spec does not state (log 17). -/
opaque freeByte : Nat → Byte

/-- K-ARM (00_scope.md, chapter 6). -/
def keyArm : Word16 := 0x71E4#16

/-- K-RUN (00_scope.md, chapter 6). -/
def keyRun : Word16 := 0x2B9D#16

/-- Capacity of each setpoint queue (R34) and each sample-forward queue (R76), of the request and reply queues
(R145, R146), of the report queue (R150) and of a path (R162). -/
def setpointCapacity : Nat := 32
def forwardCapacity : Nat := 32
def requestCapacity : Nat := 8
def replyCapacity : Nat := 8
def reportCapacity : Nat := 32
def pathCapacity : Nat := 8

end Sys2Proof.Config
end

