-- ==== Sys2Proof/Machine/State.lean ====
section
/-! DEFINITION. Everything the spec gives the gate to hold, and its value after pin reset.

The grouping follows the blocks of 00_scope.md. INVENTORY.md lists every piece with its rule. -/

namespace Sys2Proof.Machine

/-! ## Enumerations (R166 gives their order on the wire) -/

/-- Mode of a setpoint (R33). -/
inductive Mode where
  | position | hold | brake
  deriving DecidableEq, Repr

/-- Mounting reported by an ECHO (R129). -/
inductive Mounting where
  | forward | reversed
  deriving DecidableEq, Repr

/-- State of a link (R160). -/
inductive LinkState where
  | down | up
  deriving DecidableEq, Repr

/-- State of a permit (R92). -/
inductive PermitState where
  | disarmed | primed | live | tripped
  deriving DecidableEq, Repr

/-- The fourteen causes of R100, in its order. -/
inductive Cause where
  | keySequence | lapsed | supervisorLost | segmentDown | overtravel | overspeed | driveFault | axisLost
  | skew | zoneIntrusion | tableFault | forced | input | propagated
  deriving DecidableEq, Repr

/-- The statuses of R166, in its order. -/
inductive Status where
  | ok | busy | locked | badIndex | badValue | conflict | referenced | badKey | tripped | notAtRest
  | inputActive | holdTime | unchecked | poisoned | creepRequired | zoneHeld | notOwner | occupied
  | badSchedule | notDisarmed | empty | badRequest
  deriving DecidableEq, Repr

/-- The fifteen report kinds of section 10.4, in its order. -/
inductive ReportKind where
  | trip | permitChange | setpointRefused | skewAlarm | waypoint | axisLost | axisRecovered
  | zoneIntrusionSeen | zoneChange | linkCheckDone | creepDone | tableError | scheduleLoaded | inputChange
  | portChange
  deriving DecidableEq, Repr

/-- Why a setpoint is refused (R35, R36, R47). -/
inductive RefusalReason where
  | invalidAxis | noGroup | notLive | poisoned | followerAddressed | noSample | window | zone
  | skewedReference
  deriving DecidableEq, Repr

/-- Sense of a way-point (R72). -/
inductive Sense where
  | rising | falling | either
  deriving DecidableEq, Repr

/-- Action of a way-point (R72). -/
inductive WaypointAction where
  | none
  | releaseZone (z : ZoneIx)
  deriving DecidableEq, Repr

/-- What an auto-release returns (R86), and NO_GROUP (R74). -/
inductive AutoOutcome where
  | released | notOwner | occupied | noGroup
  deriving DecidableEq, Repr

/-- Sources of the CL transmitter (chapter 11). -/
inductive Source where
  | reply | report | seg (n : SegIx)
  deriving DecidableEq, Repr

/-- State of a creep run (R132). -/
inductive CreepState where
  | none | running | done | saturated | aborted
  deriving DecidableEq, Repr

/-- Creep verdict (R132). -/
inductive Verdict where
  | unknown | pass | fail
  deriving DecidableEq, Repr

/-- Skew state of a pair (R71). -/
inductive SkewState where
  | normal | alarm
  deriving DecidableEq, Repr

/-- Phase of a link check (R126). -/
inductive CheckPhase where
  | word | complement
  deriving DecidableEq, Repr

/-- How a link check ends (R131). -/
inductive CheckOutcome where
  | pass | polarity | corrupt | noEcho | aborted | segmentDown
  deriving DecidableEq, Repr

/-- The blocks whose reads pass through the check of the check bits (R166, TABLE_ERROR). -/
inductive ReadingBlock where
  | admission | monitor | egress | permit | trip | check | zone | management | scrubber
  deriving DecidableEq, Repr

/-- The four tables with check bits (R138). -/
inductive ProtectedTable where
  | axis | group | pair | extent
  deriving DecidableEq, Repr

/-- One of the 232 protected records (R138, R143). -/
inductive EntryRef where
  | axis (a : AxisIx) | group (g : GroupIx) | pair (p : PairIx) | extent (x : ExtentIx)
  deriving DecidableEq, Repr

/-- A port (R166). -/
inductive PortId where
  | seg (n : SegIx) | cl
  deriving DecidableEq, Repr

/-- The subject of a cause or a report (R100, R150). -/
inductive Subject where
  | none | axis (a : AxisIx) | group (g : GroupIx) | pair (p : PairIx) | zone (z : ZoneIx)
  | port (p : PortId) | line (l : LineIx) | entry (e : EntryRef)
  deriving DecidableEq, Repr

/-! ## Tables with check bits -/

/-- Written fields of an axis entry as the record holds them (R1). Held bits may lie outside their ranges
when the record is in error (R112, R162), so segment and station are bytes. -/
structure AxisFields where
  valid : Bool
  mirrored : Bool
  forward : Bool
  segment : Byte
  station : Byte
  softLow : Word32
  softHigh : Word32
  hardMargin : Word16
  maxStep : Word16
  velocityLimit : Word16
  missLimit : Byte
  deriving DecidableEq, Repr

/-- Written fields of a group entry (R9); members in written order. -/
structure GroupFields where
  valid : Bool
  creepRequired : Bool
  members : List Byte
  serviceInterval : Word16
  primeWindow : Word16
  tripHold : Byte
  propagation : Byte
  creepLimit : Word16
  deriving DecidableEq, Repr

/-- Written fields of a pair entry (R13). -/
structure PairFields where
  valid : Bool
  dualCast : Bool
  lead : Byte
  follow : Byte
  alarmLimit : Word16
  tripLimit : Word16
  deriving DecidableEq, Repr

/-- Written fields of an extent entry (R80). -/
structure ExtentFields where
  valid : Bool
  axis : Byte
  zone : Byte
  low : Word32
  high : Word32
  deriving DecidableEq, Repr

/-- What the check bits of a record show (R138): no error, one bit in error with the contents the check
restores, a single-bit error that shows again at every read (R139), or an error they cannot correct. -/
inductive CheckState (F : Type) where
  | clean
  | single (corrected : F)
  | lasting (corrected : F)
  | uncorrectable
  deriving DecidableEq, Repr

/-- A record of the table store: contents as held, condition of its check bits, poisoned mark. -/
structure Stored (F : Type) where
  held : F
  check : CheckState F
  poisoned : Bool
  deriving DecidableEq, Repr

/-- A record just stored with fresh check bits and the poisoned mark clear (R8, R12, R15, R82). -/
def Stored.fresh {F : Type} (f : F) : Stored F := ⟨f, .clean, false⟩

/-- Default contents (R1, R9, R13, R80). -/
def AxisFields.default : AxisFields := ⟨false, false, false, 0, 0, 0, 0, 0, 0, 0, 3⟩
def GroupFields.default : GroupFields := ⟨false, false, [], 0, 0, 0, 0, 0⟩
def PairFields.default : PairFields := ⟨false, false, 0, 0, 0, 0⟩
def ExtentFields.default : ExtentFields := ⟨false, 0, 0, 0, 0⟩

/-- An axis's place in the membership index (R4). -/
structure Membership where
  group : Option GroupIx
  pair : Option PairIx
  deriving DecidableEq, Repr

/-- The last error of a table (R144). -/
inductive LastError where
  | none
  | corrected (index : Nat)
  | uncorrectable (index : Nat)
  deriving DecidableEq, Repr

/-- Error status of one table (R144); the poisoned entries are counted when read. -/
structure ErrorStatus where
  corrected : Byte
  uncorrectable : Bool
  last : LastError
  deriving DecidableEq, Repr

/-- The table store (chapter 9). -/
structure TableStore where
  axes : Vector (Stored AxisFields) 64
  groups : Vector (Stored GroupFields) 8
  pairs : Vector (Stored PairFields) 32
  extents : Vector (Stored ExtentFields) 128
  index : Vector Membership 64
  axisErrors : ErrorStatus
  groupErrors : ErrorStatus
  pairErrors : ErrorStatus
  extentErrors : ErrorStatus
  scrubPos : Fin 232
  deriving DecidableEq, Repr

/-! ## Derived fields -/

/-- The three status flags of a sample (R166). -/
structure StatusFlags where
  brakeSet : Bool
  atRest : Bool
  driveFault : Bool
  deriving DecidableEq, Repr

/-- The latest sample of an axis, in structure coordinates (R59). -/
structure LatestSample where
  position : Word32
  velocity : Word16
  flags : StatusFlags
  cycle : Word16
  stamp : Word32
  deriving DecidableEq, Repr

/-- Derived fields of an axis entry (R5), less group, pair (the index) and poisoned (the record). -/
structure AxisRecord where
  checked : Bool
  latest : Option LatestSample
  arrived : Bool
  missCount : BitVec 3
  lost : Bool
  intrusion : Bool
  lateCount : Byte
  clampCount : Word16
  refusalReported : Bool
  deriving DecidableEq, Repr

/-- Derived fields of a pair entry (R13): last skew with its cycle. -/
structure PairRecord where
  skewState : SkewState
  lastSkew : Option (Word32 × Word16)
  deriving DecidableEq, Repr

/-- Contents of a way-point slot that is set (R72). -/
structure Waypoint where
  position : Word32
  sense : Sense
  action : WaypointAction
  deriving DecidableEq, Repr

/-- The two way-point slots of an axis (R72). -/
structure WaypointSlots where
  live : Option Waypoint
  staged : Option Waypoint
  deriving DecidableEq, Repr

/-- A cause with its subject (R100). -/
structure TripCause where
  cause : Cause
  subject : Subject
  deriving DecidableEq, Repr

/-- The permit record of a group (R92). -/
structure Permit where
  state : PermitState
  lapse : Word16
  halfDone : Bool
  cause : Option TripCause
  origin : Option GroupIx
  further : Byte
  age : Word16
  deriving DecidableEq, Repr

/-- A trip request: the group it names, cause and subject, and the origin for PROPAGATED (R100). -/
structure TripRequest where
  group : GroupIx
  cause : TripCause
  origin : Option GroupIx
  deriving DecidableEq, Repr

/-! ## Queues of admission, monitor and egress -/

/-- An entry of a setpoint queue (R34). -/
structure SetpointEntry where
  axis : AxisIx
  mode : Mode
  target : Word32
  cap : Word16
  reference : Word32
  deriving DecidableEq, Repr

/-- An entry of a sample-forward queue (R76). -/
structure ForwardEntry where
  axis : AxisIx
  cycle : Word16
  position : Word32
  velocity : Word16
  flags : StatusFlags
  deriving DecidableEq, Repr

/-- The CHECK frame in a check slot (R55). -/
structure CheckFrame where
  axis : AxisIx
  word : Word16
  deriving DecidableEq, Repr

/-! ## Trip unit -/

/-- A member snapshot (R117): "no sample" is none. -/
structure Snapshot where
  axis : AxisIx
  sample : Option LatestSample
  deriving DecidableEq, Repr

/-- A trip record (R117). -/
structure TripRecord where
  number : Word16
  group : GroupIx
  cause : TripCause
  origin : Option GroupIx
  left : PermitState
  cycle : Word16
  stamp : Word32
  snapshots : List Snapshot
  deriving DecidableEq, Repr

/-- The trip record ring (R118). -/
structure Ring where
  slots : Vector (Option TripRecord) 8
  writePtr : Fin 8
  readPtr : Fin 8
  number : Word16
  deriving DecidableEq, Repr

/-- An input line: held level and map entry (R122, R123); bit n of the set is Gn. -/
structure InputLine where
  held : Level
  active : Level
  groups : Byte
  deriving DecidableEq, Repr

/-! ## Check unit -/

/-- The link-check record of a segment (R126). -/
structure LinkCheck where
  inFlight : Bool
  axis : AxisIx
  phase : CheckPhase
  expected : Word16
  sent : Bool
  timeout : BitVec 3
  stale : Byte
  deriving DecidableEq, Repr

/-- The creep-run record of a group (R132). -/
structure CreepRun where
  state : CreepState
  duration : Word16
  elapsed : Word16
  accumulator : Word16
  verdict : Verdict
  deriving DecidableEq, Repr

/-! ## Ports and their paths -/

/-- What every port holds (R160); `limit` is the silence limit in use, which a settings write changes from the next
cycle start on. -/
structure Port where
  link : LinkState
  silence : Byte
  seen : Bool
  bad : Word16
  limit : Byte
  deriving DecidableEq, Repr

/-- A segment port, with its unmapped-frame counter (R162). -/
structure SegPort where
  port : Port
  unmapped : Word16
  deriving DecidableEq, Repr

/-- The CL port, with its dropped-request counter (R145). -/
structure ClPort where
  port : Port
  dropped : Word16
  deriving DecidableEq, Repr

/-- A SETPOINT frame in the path to the admission unit (R33, R162). -/
structure SetpointFrame where
  address : Byte
  payload : List Byte
  deriving DecidableEq, Repr

/-- A SAMPLE frame in the path to the sample monitor, tagged with the axis (R162), its fields in drive
coordinates. `overtaken` marks a frame mapped before a write that set its axis not valid or moved it (R3). -/
structure SampleFrame where
  axis : AxisIx
  cycle : Word16
  position : Word32
  velocity : Word16
  flags : StatusFlags
  overtaken : Bool
  deriving DecidableEq, Repr

/-- An ECHO frame in the path to the check unit, tagged with the axis (R129, R162, R3). -/
structure EchoFrame where
  axis : AxisIx
  word : Word16
  mounting : Mounting
  overtaken : Bool
  deriving DecidableEq, Repr

/-- The paths from the ports (R162). -/
structure Paths where
  setpoint : List SetpointFrame
  sample : Vector (List SampleFrame) 4
  echo : Vector (List EchoFrame) 4
  deriving DecidableEq, Repr

/-! ## Reports, replies, requests, scheduling -/

/-- Reason of a PERMIT_CHANGE (R108). -/
inductive PermitReason where
  | armed | run | primeExpired | parked | cleared
  deriving DecidableEq, Repr

/-- Way of change of a zone's owner (R87). -/
inductive ZoneWay where
  | claim | release | autoRelease (a : AxisIx)
  deriving DecidableEq, Repr

/-- Why a creep run was aborted (R136). The trip cause is carried without its subject (log 18). -/
inductive CreepAbort where
  | trip (cause : Cause) | lost (a : AxisIx)
  deriving DecidableEq, Repr

/-- What a TABLE_ERROR tells (R139, R140). -/
inductive TableErrorKind where
  | corrected (count : Byte) | uncorrectable (group : Option GroupIx)
  deriving DecidableEq, Repr

/-- How a schedule load took effect (R158). -/
inductive LoadWay where
  | phase0 | idle
  deriving DecidableEq, Repr

/-- A report: its kind, subject and details, as the posting rule lists them (section 10.4). -/
inductive ReportBody where
  | trip (g : GroupIx) (cause : TripCause) (origin : Option GroupIx) (left : PermitState) (slot : Fin 8)
      (number : Word16) (snapshots : Nat)
  | permitChange (g : GroupIx) (before after : PermitState) (reason : PermitReason) (lapse : Word16)
  | setpointRefused (a : AxisIx) (reason : RefusalReason) (mode : Mode) (target : Word32) (follow : Option AxisIx)
  | skewAlarm (p : PairIx) (set : Bool) (skew : Word32) (cycle : Word16)
  | waypoint (a : AxisIx) (w : Waypoint) (position : Word32) (cycle : Word16) (stamp : Word32)
      (outcome : Option AutoOutcome)
  | axisLost (a : AxisIx) (g : Option GroupIx) (last : Option Word16)
  | axisRecovered (a : AxisIx) (cycle : Word16)
  | zoneIntrusionSeen (a : AxisIx) (x : ExtentIx) (zone : Byte) (position : Word32) (g : Option GroupIx)
      (permit : Option PermitState)
  | zoneChange (z : ZoneIx) (before after : Option GroupIx) (way : ZoneWay)
  | linkCheckDone (a : AxisIx) (outcome : CheckOutcome) (sg : SegIx) (phase : CheckPhase) (expected : Word16)
      (echo : Option (Word16 × Mounting)) (stale : Byte)
  | creepDone (g : GroupIx) (run : CreepRun) (limit : Word16) (abort : Option CreepAbort)
  | tableError (e : EntryRef) (kind : TableErrorKind) (block : ReadingBlock)
  | scheduleLoaded (counts : List Nat) (way : LoadWay)
  | inputChange (l : LineIx) (level : Level) (active : Bool) (groups : Byte)
  | portChange (p : PortId) (link : LinkState) (silence : Byte)
  deriving DecidableEq, Repr

/-- An entry of the report queue (R150). -/
structure Report where
  body : ReportBody
  cycle : Word16
  stamp : Word32
  overrun : Byte
  deriving DecidableEq, Repr

/-- An entry of the request queue (R145): a REQUEST frame with an empty payload has no code byte. -/
structure Request where
  tag : Byte
  code : Option Byte
  params : List Byte
  deriving DecidableEq, Repr

/-- An entry of the reply queue (R146): one result part, or several for a trip record (R168). -/
structure Reply where
  tag : Byte
  code : Byte
  status : Status
  cycle : Word16
  parts : List (List Byte)
  deriving DecidableEq, Repr

/-- The settings record (R147). -/
structure Settings where
  cyclePeriod : Word16
  clSilence : Byte
  segSilence : Byte
  scrubRate : Byte
  checkWord : Word16
  reportMask : Word16
  deriving DecidableEq, Repr

/-- The cycle timer (section 2.1). -/
structure Timer where
  timebase : Word32
  cycle : Word16
  period : Word16
  phase : Word16
  deriving DecidableEq, Repr

/-- The schedule tables, flag and pointer (chapter 11). -/
structure Schedule where
  live : Vector Source 32
  shadow : Vector Source 32
  loadPending : Bool
  pointer : Fin 32
  deriving DecidableEq, Repr

/-- The sources of the CL transmitter and the transmitter itself. It is IDLE when none, and BUSY with the
frame, or the frames of one transmission (R168), that it is sending. -/
structure ClSide where
  replies : List Reply
  reports : List Report
  overrunTotal : Word16
  forward : Vector (List ForwardEntry) 4
  schedule : Schedule
  tx : Option (List (List Byte))
  deriving DecidableEq, Repr

/-- The sources of the segment transmitters and the transmitters themselves (R52). A stop set is a list of
axes in ascending order without repeats; a transmitter holds the frame it is sending, or none. -/
structure Egress where
  stopSet : Vector (List AxisIx) 4
  beacon : Vector Bool 4
  setpoints : Vector (List SetpointEntry) 4
  checkSlot : Vector (Option CheckFrame) 4
  tx : Vector (Option (List Byte)) 4
  deriving DecidableEq, Repr

/-- The blocks that take a soft reset, each as an event of its own (R154). -/
inductive ResetBlock where
  | tables | timer | monitor | admission | permit | zone | trip | check
  | port (p : PortId)
  | management | scheduler
  deriving DecidableEq, Repr

/-! ## The machine -/

/-- The whole gate. -/
structure State where
  timer : Timer
  tables : TableStore
  axisRec : Vector AxisRecord 64
  pairRec : Vector PairRecord 32
  waypoints : Vector WaypointSlots 64
  permits : Vector Permit 8
  brk : Vector Bool 8
  zones : Vector (Option GroupIx) 16
  egress : Egress
  ring : Ring
  inputs : Vector InputLine 8
  checks : Vector LinkCheck 4
  creep : Vector CreepRun 8
  segPorts : Vector SegPort 4
  clPort : ClPort
  paths : Paths
  /-- Trip requests sent and not yet taken, oldest first, each with its sender (log 6). -/
  inFlight : List (TripSender × TripRequest)
  settings : Settings
  requests : List Request
  cl : ClSide
  /-- The blocks that have yet to take the soft reset last accepted (R154; log 20). -/
  resets : List ResetBlock
  /-- The model's own: the index of the next free value (log 22). -/
  freeCount : Nat
  /-- The commands that wait, first in, first out. -/
  pending : List Instr
  deriving DecidableEq, Repr

/-- No meaning of the gate ends in a fault: the spec stops the machine nowhere (INVENTORY.md, "Faults"). -/
inductive Fault where
  deriving DecidableEq, Repr

/-- Why a command has no meaning. -/
inductive Refusal where
  /-- Raised by exec for a command whose meaning is not written yet. Safe: the model stops where the gate goes on. -/
  | notModelled (mnemonic : String)
  deriving DecidableEq, Repr

/-! ## Values after pin reset -/

/-- The default schedule table (R156). -/
def Schedule.defaultTable : Vector Source 32 :=
  #v[.reply, .seg 0, .seg 1, .seg 2, .report, .seg 3, .seg 0, .seg 1,
     .reply, .seg 2, .seg 3, .seg 0, .report, .seg 1, .seg 2, .seg 3,
     .reply, .seg 0, .seg 1, .seg 2, .report, .seg 3, .seg 0, .seg 1,
     .reply, .seg 2, .seg 3, .seg 0, .report, .seg 1, .seg 2, .seg 3]

/-- The default settings record (R147). -/
def Settings.default : Settings := ⟨2000#16, 25#8, 5#8, 1#8, 0x4E71#16, 0x7FFF#16⟩

/-- R144, pin reset. -/
def ErrorStatus.clean : ErrorStatus := ⟨0, false, .none⟩

/-- R17, pin reset of the tables and the index. -/
def TableStore.reset : TableStore where
  axes := Vector.replicate 64 (Stored.fresh AxisFields.default)
  groups := Vector.replicate 8 (Stored.fresh GroupFields.default)
  pairs := Vector.replicate 32 (Stored.fresh PairFields.default)
  extents := Vector.replicate 128 (Stored.fresh ExtentFields.default)
  index := Vector.replicate 64 ⟨none, none⟩
  axisErrors := .clean
  groupErrors := .clean
  pairErrors := .clean
  extentErrors := .clean
  scrubPos := 0

/-- R17, derived fields of an axis after either reset. -/
def AxisRecord.reset : AxisRecord := ⟨false, none, false, 0, false, false, 0, 0, false⟩

/-- R17, derived fields of a pair after either reset. -/
def PairRecord.reset : PairRecord := ⟨.normal, none⟩

/-- R109, permit record after either reset. -/
def Permit.reset : Permit := ⟨.disarmed, 0, false, none, none, 0, 0⟩

/-- R137, creep-run record after either reset. -/
def CreepRun.reset : CreepRun := ⟨.none, 0, 0, 0, .unknown⟩

/-- R137, link-check record after pin reset. -/
def LinkCheck.reset : LinkCheck := ⟨false, 0, .complement, 0, false, 0, 0⟩

/-- R160, a port after pin reset, with its limit of the default settings. -/
def Port.reset (limit : Byte) : Port := ⟨.down, 0, false, 0, limit⟩

/-- R56, R125, R24: the egress side after pin reset, with a BEACON owed on every segment. -/
def Egress.reset : Egress where
  stopSet := Vector.replicate 4 []
  beacon := Vector.replicate 4 true
  setpoints := Vector.replicate 4 []
  checkSlot := Vector.replicate 4 none
  tx := Vector.replicate 4 none

/-- R146, R150, R78, R159: the CL side after pin reset. -/
def ClSide.reset : ClSide where
  replies := []
  reports := []
  overrunTotal := 0
  forward := Vector.replicate 4 []
  schedule := ⟨Schedule.defaultTable, Schedule.defaultTable, false, 0⟩
  tx := none

/-- The gate after pin reset. The held line levels are those of the pins at the end of reset (R125): LOW here,
DESIGN CHOICE (log 1); the command PIN_RESET carries the pins. -/
def State.reset : State where
  timer := ⟨0, 0, 2000#16, 0⟩
  tables := .reset
  axisRec := Vector.replicate 64 .reset
  pairRec := Vector.replicate 32 .reset
  waypoints := Vector.replicate 64 ⟨none, none⟩
  permits := Vector.replicate 8 .reset
  brk := Vector.replicate 8 false
  zones := Vector.replicate 16 none
  egress := .reset
  ring := ⟨Vector.replicate 8 none, 0, 0, 0⟩
  inputs := Vector.replicate 8 ⟨.low, .high, 0⟩
  checks := Vector.replicate 4 .reset
  creep := Vector.replicate 8 .reset
  segPorts := Vector.replicate 4 ⟨.reset Settings.default.segSilence, 0⟩
  clPort := ⟨.reset Settings.default.clSilence, 0⟩
  paths := ⟨[], Vector.replicate 4 [], Vector.replicate 4 []⟩
  inFlight := []
  settings := .default
  requests := []
  cl := .reset
  resets := []
  freeCount := 0
  pending := []

end Sys2Proof.Machine
end

