-- ==== Sys2Proof/Machine/Flags.lean ====
section
/-! DEFINITION. Counters, saturation, magnitudes and flag bytes. -/

namespace Sys2Proof.Machine

/-- A counter's increment, saturating at its maximum (00_scope.md "Counters"). -/
def satInc {w : Nat} (x : BitVec w) : BitVec w := if x = BitVec.allOnes w then x else x + 1

/-- A counter's decrement, stopping at 0 (R97). -/
def satDec {w : Nat} (x : BitVec w) : BitVec w := if x = 0 then x else x - 1

/-- Negation of a signed word, saturating (R2). -/
def negSat {w : Nat} (x : BitVec w) : BitVec w := if x = BitVec.intMin w then BitVec.intMax w else -x

/-- From drive to structure coordinates, or back, by polarity (R2). -/
def byPolarity {w : Nat} (mirrored : Bool) (x : BitVec w) : BitVec w := if mirrored then negSat x else x

/-- An exact value saturated to the signed 32-bit range (R69). -/
def saturate32 (x : Int) : Word32 :=
  if x < -2147483648 then BitVec.intMin 32 else if 2147483647 < x then BitVec.intMax 32 else BitVec.ofInt 32 x

/-- Distance of two positions, exact (R41, R75). -/
def distance (x y : Int) : Nat := (x - y).natAbs

/-- The travel between two positions meets the closed interval from low to high (R34, R43, 00_scope.md). -/
def travelOverlaps (reference target low high : Int) : Bool :=
  decide (min reference target ≤ high) && decide (low ≤ max reference target)

/-- A position lies in the closed interval (R65, R83). -/
def inInterval (x low high : Int) : Bool := decide (low ≤ x) && decide (x ≤ high)

/-- The status flags byte: BRAKE_SET bit 0, AT_REST bit 1, DRIVE_FAULT bit 2 (section 12.6). -/
def StatusFlags.toByte (f : StatusFlags) : Byte :=
  (if f.brakeSet then 1 else 0) ||| (if f.atRest then 2 else 0) ||| (if f.driveFault then 4 else 0)

/-- Undefined flag bits are ignored on receipt (R166). -/
def StatusFlags.ofByte (b : Byte) : StatusFlags := ⟨b.getLsbD 0, b.getLsbD 1, b.getLsbD 2⟩

/-- The groups of a set byte, in ascending index (R166). -/
def groupsOf (b : Byte) : List GroupIx := (List.finRange 8).filter fun g => b.getLsbD g

/-- The group is in the set. -/
def inGroupSet (b : Byte) (g : GroupIx) : Bool := b.getLsbD g

/-- PRIMED or LIVE: the states in which a monitored cause trips (R61, R101). -/
def PermitState.underPermit : PermitState → Bool
  | .primed => true
  | .live => true
  | .disarmed => false
  | .tripped => false

/-- The class of a cause (R100). -/
def Cause.commanded : Cause → Bool
  | .forced => true
  | .input => true
  | .propagated => true
  | .keySequence | .lapsed | .supervisorLost | .segmentDown | .overtravel | .overspeed | .driveFault
  | .axisLost | .skew | .zoneIntrusion | .tableFault => false

/-- A report mask as the record holds it: fifteen enables, TRIP always enabled (R147, R166). -/
def holdMask (m : Word16) : Word16 := (m &&& 0x7FFF#16) ||| 1#16

end Sys2Proof.Machine
end

