-- ==== Sys2Proof/Machine/Operands.lean ====
section
/-! DEFINITION. The byte forms: codes (R166), check word and envelope (R165), payloads (section 12.6),
request parameters (R167), result data (R168) and report details (section 12.6, log 16 and 18). -/

namespace Sys2Proof.Machine

/-! ## Codes -/

def Mode.code : Mode → Byte
  | .position => 0 | .hold => 1 | .brake => 2

def Mode.ofByte (b : Byte) : Option Mode :=
  if b = 0 then some .position else if b = 1 then some .hold else if b = 2 then some .brake else none

def Mounting.code : Mounting → Byte
  | .forward => 0 | .reversed => 1

def Mounting.ofByte (b : Byte) : Option Mounting :=
  if b = 0 then some .forward else if b = 1 then some .reversed else none

def PortId.code : PortId → Byte
  | .seg n => BitVec.ofNat 8 n | .cl => 4

def LinkState.code : LinkState → Byte
  | .down => 0 | .up => 1

def PermitState.code : PermitState → Byte
  | .disarmed => 0 | .primed => 1 | .live => 2 | .tripped => 3

def Cause.code : Cause → Byte
  | .keySequence => 0 | .lapsed => 1 | .supervisorLost => 2 | .segmentDown => 3 | .overtravel => 4
  | .overspeed => 5 | .driveFault => 6 | .axisLost => 7 | .skew => 8 | .zoneIntrusion => 9
  | .tableFault => 10 | .forced => 11 | .input => 12 | .propagated => 13

def Status.code : Status → Byte
  | .ok => 0 | .busy => 1 | .locked => 2 | .badIndex => 3 | .badValue => 4 | .conflict => 5
  | .referenced => 6 | .badKey => 7 | .tripped => 8 | .notAtRest => 9 | .inputActive => 10 | .holdTime => 11
  | .unchecked => 12 | .poisoned => 13 | .creepRequired => 14 | .zoneHeld => 15 | .notOwner => 16
  | .occupied => 17 | .badSchedule => 18 | .notDisarmed => 19 | .empty => 20 | .badRequest => 21

def ReportKind.index : ReportKind → Nat
  | .trip => 0 | .permitChange => 1 | .setpointRefused => 2 | .skewAlarm => 3 | .waypoint => 4
  | .axisLost => 5 | .axisRecovered => 6 | .zoneIntrusionSeen => 7 | .zoneChange => 8 | .linkCheckDone => 9
  | .creepDone => 10 | .tableError => 11 | .scheduleLoaded => 12 | .inputChange => 13 | .portChange => 14

def RefusalReason.code : RefusalReason → Byte
  | .invalidAxis => 0 | .noGroup => 1 | .notLive => 2 | .poisoned => 3 | .followerAddressed => 4
  | .noSample => 5 | .window => 6 | .zone => 7 | .skewedReference => 8

def Sense.code : Sense → Byte
  | .rising => 0 | .falling => 1 | .either => 2

def Sense.ofByte (b : Byte) : Option Sense :=
  if b = 0 then some .rising else if b = 1 then some .falling else if b = 2 then some .either else none

def WaypointAction.code : WaypointAction → Byte
  | .none => 0 | .releaseZone _ => 1

def levelCode : Level → Byte
  | .low => 0 | .high => 1

def levelOfByte (b : Byte) : Option Level := if b = 0 then some .low else if b = 1 then some .high else none

def Source.code : Source → Byte
  | .reply => 0 | .report => 1 | .seg n => 2 + BitVec.ofNat 8 n

/-- The six sources in the order of R157 and R166. -/
def Source.all : List Source := [.reply, .report, .seg 0, .seg 1, .seg 2, .seg 3]

def Source.ofByte (b : Byte) : Option Source := Source.all[b.toNat]?

def CreepState.code : CreepState → Byte
  | .none => 0 | .running => 1 | .done => 2 | .saturated => 3 | .aborted => 4

def Verdict.code : Verdict → Byte
  | .unknown => 0 | .pass => 1 | .fail => 2

def SkewState.code : SkewState → Byte
  | .normal => 0 | .alarm => 1

def CheckPhase.code : CheckPhase → Byte
  | .word => 0 | .complement => 1

def CheckOutcome.code : CheckOutcome → Byte
  | .pass => 0 | .polarity => 1 | .corrupt => 2 | .noEcho => 3 | .aborted => 4 | .segmentDown => 5

def ReadingBlock.code : ReadingBlock → Byte
  | .admission => 0 | .monitor => 1 | .egress => 2 | .permit => 3 | .trip => 4 | .check => 5 | .zone => 6
  | .management => 7 | .scrubber => 8

def AutoOutcome.code : AutoOutcome → Byte
  | .released => 0 | .notOwner => 1 | .occupied => 2 | .noGroup => 3

/-- Order of the reasons in R108 (R166: an enumeration only a report names). -/
def PermitReason.code : PermitReason → Byte
  | .armed => 0 | .run => 1 | .primeExpired => 2 | .parked => 3 | .cleared => 4

/-- Order of the ways in R87. -/
def ZoneWay.code : ZoneWay → Byte
  | .claim => 0 | .release => 1 | .autoRelease _ => 2

def CreepAbort.code : CreepAbort → Byte
  | .trip _ => 0 | .lost _ => 1

/-- Order of the ways in R158. -/
def LoadWay.code : LoadWay → Byte
  | .phase0 => 0 | .idle => 1

/-! ## Fields -/

/-- A yes or no of one byte, for which R166 gives no code: 01h for yes or set, 00h for no or clear (log 16). -/
def boolByte (b : Bool) : Byte := if b then 1 else 0

/-- A number as one byte: an index, an 8-bit count. -/
def natByte (n : Nat) : Byte := BitVec.ofNat 8 n

/-- Most significant byte first (R166). -/
def bytes16 (x : Word16) : List Byte := [x.extractLsb' 8 8, x.extractLsb' 0 8]

def bytes32 (x : Word32) : List Byte :=
  [x.extractLsb' 24 8, x.extractLsb' 16 8, x.extractLsb' 8 8, x.extractLsb' 0 8]

def word16 (b1 b0 : Byte) : Word16 := b1 ++ b0

def word32 (b3 b2 b1 b0 : Byte) : Word32 := b3 ++ b2 ++ b1 ++ b0

/-- An index that may be none: FFh for none (R166). -/
def optIndex {n : Nat} : Option (Fin n) → Byte
  | some i => natByte i
  | none => 0xFF#8

/-- A value of n bytes that may be absent, preceded by a presence byte (R166). -/
def present (n : Nat) : Option (List Byte) → List Byte
  | some bs => 1 :: bs
  | none => 0 :: List.replicate n 0

/-- The object a byte numbers, when it numbers one. -/
def ixOfByte (n : Nat) (b : Byte) : Option (Fin n) := if h : b.toNat < n then some ⟨b.toNat, h⟩ else none

def axisOfByte (b : Byte) : Option AxisIx := ixOfByte 64 b

/-- The segment a held byte names, when it is one of SG0 to SG3 (R112, R162). -/
def segOfByte (b : Byte) : Option SegIx := ixOfByte 4 b

/-- A station address of a drive: 1 to 32 (R53, R161). -/
def isStation (b : Byte) : Bool := decide (1 ≤ b.toNat) && decide (b.toNat ≤ 32)

/-- Subject type and index (R166); no subject has index FFh (log 16). -/
def Subject.bytes : Subject → List Byte
  | .none => [0, 0xFF#8]
  | .axis a => [1, natByte a]
  | .group g => [2, natByte g]
  | .pair p => [3, natByte p]
  | .zone z => [4, natByte z]
  | .port p => [5, p.code]
  | .line l => [6, natByte l]
  | .entry (.axis a) => [7, natByte a]
  | .entry (.group g) => [8, natByte g]
  | .entry (.pair p) => [9, natByte p]
  | .entry (.extent x) => [10, natByte x]

/-! ## Check word and envelope (R165) -/

/-- One bit of the cyclic check. -/
def crcBit (c : Word16) : Word16 := if c.msb then (c <<< 1) ^^^ 0x1021#16 else c <<< 1

/-- One byte of the cyclic check, most significant bit first. -/
def crcByte (c : Word16) (b : Byte) : Word16 :=
  crcBit (crcBit (crcBit (crcBit (crcBit (crcBit (crcBit (crcBit (c ^^^ (b.setWidth 16 <<< 8)))))))))

/-- The check word over the bytes from kind through the last payload byte. -/
def checkWordOf (bs : List Byte) : Word16 := bs.foldl crcByte 0xFFFF#16

def kindSetpoint : Byte := 1
def kindAlive : Byte := 2
def kindRequest : Byte := 3
def kindReply : Byte := 4
def kindReport : Byte := 5
def kindSample : Byte := 6
def kindBeacon : Byte := 7
def kindStop : Byte := 8
def kindCheck : Byte := 9
def kindEcho : Byte := 10

/-- A frame in its envelope. -/
def buildFrame (kind address tag : Byte) (payload : List Byte) : List Byte :=
  0x7E#8 :: (kind :: address :: tag :: natByte payload.length :: payload)
    ++ bytes16 (checkWordOf (kind :: address :: tag :: natByte payload.length :: payload))

/-- A frame that passed checks 1 to 3 of R161. -/
structure RawFrame where
  kind : Byte
  address : Byte
  tag : Byte
  payload : List Byte
  deriving DecidableEq, Repr

/-- Checks 1 to 3 of R161: delimiter, length, check word. -/
def parseFrame : List Byte → Option RawFrame
  | d :: kind :: address :: tag :: len :: rest =>
    let payload := rest.take len.toNat
    if d = 0x7E#8 ∧ len.toNat ≤ 56 ∧ rest.length = len.toNat + 2
        ∧ rest.drop len.toNat = bytes16 (checkWordOf (kind :: address :: tag :: len :: payload)) then
      some ⟨kind, address, tag, payload⟩
    else none
  | _ => none

/-! ## Frames on a segment -/

/-- What a SETPOINT payload carries (R33). -/
structure SetpointPayload where
  mode : Mode
  target : Word32
  cap : Word16
  deriving DecidableEq, Repr

/-- A payload in the SETPOINT form: length 7, a known mode, a speed cap of at most 32767 (R33). -/
def parseSetpoint : List Byte → Option SetpointPayload
  | [m, t3, t2, t1, t0, c1, c0] =>
    match Mode.ofByte m with
    | some mode =>
      if (word16 c1 c0).toNat ≤ 32767 then some ⟨mode, word32 t3 t2 t1 t0, word16 c1 c0⟩ else none
    | none => none
  | _ => none

/-- The axis and payload of a SETPOINT frame the admission unit can judge: FFh and bad forms are none (R33). -/
def SetpointFrame.parse (f : SetpointFrame) : Option (AxisIx × SetpointPayload) :=
  match axisOfByte f.address, parseSetpoint f.payload with
  | some a, some p => some (a, p)
  | _, _ => none

def setpointFrame (station : Byte) (mode : Mode) (target : Word32) (cap : Word16) : List Byte :=
  buildFrame kindSetpoint station 0 (mode.code :: bytes32 target ++ bytes16 cap)

def beaconFrame (cycle period : Word16) : List Byte := buildFrame kindBeacon 0 0 (bytes16 cycle ++ bytes16 period)

def stopFrame (station : Byte) : List Byte := buildFrame kindStop station 0 []

def checkFrame (station : Byte) (word : Word16) : List Byte := buildFrame kindCheck station 0 (bytes16 word)

/-- A SAMPLE payload on a segment, of length 9 (R161). -/
def parseSample (a : AxisIx) : List Byte → Option SampleFrame
  | [c1, c0, p3, p2, p1, p0, v1, v0, f] =>
    some ⟨a, word16 c1 c0, word32 p3 p2 p1 p0, word16 v1 v0, StatusFlags.ofByte f, false⟩
  | _ => none

/-- An ECHO payload, of length 3 with a known mounting (R161). -/
def parseEcho (a : AxisIx) : List Byte → Option EchoFrame
  | [w1, w0, m] => (Mounting.ofByte m).map fun mount => ⟨a, word16 w1 w0, mount, false⟩
  | _ => none

/-! ## Frames on the control link -/

def forwardFrame (e : ForwardEntry) : List Byte :=
  buildFrame kindSample (natByte e.axis) 0
    (natByte e.axis :: bytes16 e.cycle ++ bytes32 e.position ++ bytes16 e.velocity ++ [e.flags.toByte])

/-- The REPLY frames of one transmission, one for each part (R146, R168). -/
def Reply.frames (r : Reply) : List (List Byte) :=
  r.parts.map fun data => buildFrame kindReply 0xFF#8 r.tag (r.code :: r.status.code :: bytes16 r.cycle ++ data)

def ReportBody.kind : ReportBody → ReportKind
  | .trip .. => .trip
  | .permitChange .. => .permitChange
  | .setpointRefused .. => .setpointRefused
  | .skewAlarm .. => .skewAlarm
  | .waypoint .. => .waypoint
  | .axisLost .. => .axisLost
  | .axisRecovered .. => .axisRecovered
  | .zoneIntrusionSeen .. => .zoneIntrusionSeen
  | .zoneChange .. => .zoneChange
  | .linkCheckDone .. => .linkCheckDone
  | .creepDone .. => .creepDone
  | .tableError .. => .tableError
  | .scheduleLoaded .. => .scheduleLoaded
  | .inputChange .. => .inputChange
  | .portChange .. => .portChange

/-- Subjects of the kinds (section 10.4). -/
def ReportBody.subject : ReportBody → Subject
  | .trip g .. => .group g
  | .permitChange g .. => .group g
  | .setpointRefused a .. => .axis a
  | .skewAlarm p .. => .pair p
  | .waypoint a .. => .axis a
  | .axisLost a .. => .axis a
  | .axisRecovered a .. => .axis a
  | .zoneIntrusionSeen a .. => .axis a
  | .zoneChange z .. => .zone z
  | .linkCheckDone a .. => .axis a
  | .creepDone g .. => .group g
  | .tableError e .. => .entry e
  | .scheduleLoaded .. => .none
  | .inputChange l .. => .line l
  | .portChange p .. => .port p

/-- Details of a report, in the order its posting rule lists them (section 12.6; log 18). The trip cause of a CREEP_DONE
is the cause alone, without its subject (R136; log 18). -/
def ReportBody.details : ReportBody → List Byte
  | .trip _ c origin left slot number n =>
    c.cause.code :: c.subject.bytes ++ [optIndex origin, left.code, natByte slot] ++ bytes16 number ++ [natByte n]
  | .permitChange _ before after reason lapse => [before.code, after.code, reason.code] ++ bytes16 lapse
  | .setpointRefused _ reason mode target follow =>
    [reason.code, mode.code] ++ bytes32 target ++ [optIndex follow]
  | .skewAlarm _ set skew cycle => (if set then 0 else 1) :: bytes32 skew ++ bytes16 cycle
  | .waypoint _ w position cycle stamp outcome =>
    bytes32 w.position ++ [w.sense.code] ++ bytes32 position ++ bytes16 cycle ++ bytes32 stamp
      ++ (match w.action with
          | .none => [0, 0xFF#8]
          | .releaseZone z => [1, natByte z])
      ++ present 1 (outcome.map fun o => [o.code])
  | .axisLost _ g last => optIndex g :: present 2 (last.map bytes16)
  | .axisRecovered _ cycle => bytes16 cycle
  | .zoneIntrusionSeen _ x zone position g permit =>
    [natByte x, zone] ++ bytes32 position ++ [optIndex g] ++ present 1 (permit.map fun p => [p.code])
  | .zoneChange _ before after way =>
    [optIndex before, optIndex after, way.code,
      match way with
      | .claim => 0xFF#8
      | .release => 0xFF#8
      | .autoRelease a => natByte a]
  | .linkCheckDone _ outcome sg phase expected echo stale =>
    [outcome.code, natByte sg, phase.code] ++ bytes16 expected
      ++ present 2 (echo.map fun e => bytes16 e.1) ++ present 1 (echo.map fun e => [e.2.code]) ++ [stale]
  | .creepDone _ run limit abort =>
    run.state.code :: bytes16 run.duration ++ bytes16 run.elapsed ++ bytes16 run.accumulator ++ bytes16 limit
      ++ [run.verdict.code] ++ present 1 (abort.map fun r => [r.code])
      ++ (match abort with
          | some (.trip c) => [1, c.code, 0xFF#8]
          | some (.lost a) => [0, 0, natByte a]
          | none => [0, 0, 0xFF#8])
  | .tableError _ kind block =>
    match kind with
    | .corrected count => [0, block.code, count]
    | .uncorrectable g => [1, block.code, optIndex g]
  | .scheduleLoaded counts way => counts.map natByte ++ [way.code]
  | .inputChange _ level active groups => [levelCode level, boolByte active, groups]
  | .portChange _ link silence => [link.code, silence]

/-- The REPORT frame, with the overrun count as it stands (R150). -/
def Report.frame (r : Report) : List Byte :=
  buildFrame kindReport 0xFF#8 0
    (natByte r.body.kind.index :: bytes16 r.cycle ++ bytes32 r.stamp ++ r.body.subject.bytes ++ [r.overrun]
      ++ r.body.details)

/-! ## Written contents (section 12.7) -/

def AxisFields.bytes (f : AxisFields) : List Byte :=
  [(if f.valid then 1 else 0) ||| (if f.mirrored then 2 else 0) ||| (if f.forward then 4 else 0), f.segment, f.station]
    ++ bytes32 f.softLow ++ bytes32 f.softHigh ++ bytes16 f.hardMargin ++ bytes16 f.maxStep
    ++ bytes16 f.velocityLimit ++ [f.missLimit]

def parseAxisFields : List Byte → Option AxisFields
  | [fl, sg, st, l3, l2, l1, l0, h3, h2, h1, h0, m1, m0, s1, s0, v1, v0, miss] =>
    some ⟨fl.getLsbD 0, fl.getLsbD 1, fl.getLsbD 2, sg, st, word32 l3 l2 l1 l0, word32 h3 h2 h1 h0, word16 m1 m0,
      word16 s1 s0, word16 v1 v0, miss⟩
  | _ => none

def GroupFields.bytes (f : GroupFields) : List Byte :=
  [(if f.valid then 1 else 0) ||| (if f.creepRequired then 2 else 0), natByte f.members.length]
    ++ bytes16 f.serviceInterval ++ bytes16 f.primeWindow ++ [f.tripHold, f.propagation] ++ bytes16 f.creepLimit
    ++ f.members

/-- The length must agree with the member count (R167). -/
def parseGroupFields : List Byte → Option GroupFields
  | fl :: n :: s1 :: s0 :: p1 :: p0 :: hold :: prop :: c1 :: c0 :: members =>
    if members.length = n.toNat then
      some ⟨fl.getLsbD 0, fl.getLsbD 1, members, word16 s1 s0, word16 p1 p0, hold, prop, word16 c1 c0⟩
    else none
  | _ => none

def PairFields.bytes (f : PairFields) : List Byte :=
  [(if f.valid then 1 else 0) ||| (if f.dualCast then 2 else 0), f.lead, f.follow] ++ bytes16 f.alarmLimit
    ++ bytes16 f.tripLimit

def parsePairFields : List Byte → Option PairFields
  | [fl, lead, follow, a1, a0, t1, t0] =>
    some ⟨fl.getLsbD 0, fl.getLsbD 1, lead, follow, word16 a1 a0, word16 t1 t0⟩
  | _ => none

def ExtentFields.bytes (f : ExtentFields) : List Byte :=
  [boolByte f.valid, f.axis, f.zone] ++ bytes32 f.low ++ bytes32 f.high

def parseExtentFields : List Byte → Option ExtentFields
  | [fl, a, z, l3, l2, l1, l0, h3, h2, h1, h0] =>
    some ⟨fl.getLsbD 0, a, z, word32 l3 l2 l1 l0, word32 h3 h2 h1 h0⟩
  | _ => none

/-- A slot's contents: an empty slot is the empty record, its other bytes 0; an action NONE has no zone, which
is read as FFh (R166; log 16). -/
def waypointBytes : Option Waypoint → List Byte
  | none => [0, 0, 0, 0, 0, 0, 0, 0]
  | some w =>
    1 :: bytes32 w.position ++ [w.sense.code]
      ++ (match w.action with
          | .none => [0, 0xFF#8]
          | .releaseZone z => [1, natByte z])

/-- What a WAYPOINT write carries: none for a value out of range, and otherwise the empty record or a slot
(R72). For the empty record the other bytes are ignored (R167). -/
def parseWaypoint (form p3 p2 p1 p0 sense action zone : Byte) : Option (Option Waypoint) :=
  if form = 0 then some none
  else if form = 1 then
    match Sense.ofByte sense with
    | none => none
    | some sn =>
      if action = 0 then some (some ⟨word32 p3 p2 p1 p0, sn, .none⟩)
      else if action = 1 then
        (ixOfByte 16 zone).map fun z => some ⟨word32 p3 p2 p1 p0, sn, .releaseZone z⟩
      else none
  else none

def Settings.bytes (f : Settings) : List Byte :=
  bytes16 f.cyclePeriod ++ [f.clSilence, f.segSilence, f.scrubRate] ++ bytes16 f.checkWord ++ bytes16 f.reportMask

def parseSettings : List Byte → Option Settings
  | [c1, c0, cl, sg, rate, w1, w0, m1, m0] =>
    some ⟨word16 c1 c0, cl, sg, rate, word16 w1 w0, holdMask (word16 m1 m0)⟩
  | _ => none

/-! ## Requests (R145 to R147, R167) -/

/-- A request with its operands, as the row of the table that takes it. -/
inductive Demand where
  | unknown
  | readAxis (i : Byte) | readGroup (i : Byte) | readPair (i : Byte) | readExtent (i : Byte) | readZone (i : Byte)
  | readWaypoint (i : Byte) | readInput (i : Byte) | readSettings (i : Byte) | readSchedule (i : Byte)
  | writeAxis (i : Byte) (f : AxisFields)
  | writeGroup (i : Byte) (f : GroupFields)
  | writePair (i : Byte) (f : PairFields)
  | writeExtent (i : Byte) (f : ExtentFields)
  | writeZone
  | writeWaypoint (i : Byte) (w : Option (Option Waypoint))
  | writeInput (i : Byte) (level groups : Byte)
  | writeSettings (i : Byte) (f : Settings)
  | writeSchedule (i : Byte) (source : Byte)
  | keyArm (g : Byte) | keyRun (g : Byte) | keyOther (g : Byte)
  | park (g : Byte) | forceTrip (g : Byte) | clearTrip (g : Byte)
  | claimZone (z g : Byte) | releaseZone (z g : Byte)
  | linkCheck (a : Byte)
  | creepStart (g : Byte) (duration : Word16) | creepStop (g : Byte) | creepResult (g : Byte)
  | loadSchedule | readTripRecord | rewindTripRecords
  | readStatus (page : Byte)
  | clearCounters | softReset
  deriving DecidableEq, Repr

/-- READ_ENTRY: table, index (R167); the table codes are those of R166. -/
def parseRead : List Byte → Demand
  | [t, i] =>
    if t = 0 then .readAxis i else if t = 1 then .readGroup i else if t = 2 then .readPair i
    else if t = 3 then .readExtent i else if t = 4 then .readZone i else if t = 5 then .readWaypoint i
    else if t = 6 then .readInput i else if t = 7 then .readSettings i else if t = 8 then .readSchedule i
    else .unknown
  | _ => .unknown

/-- The operands of a WRITE_ENTRY to a table other than ZONE; none for a length that is not the table's. -/
def parseContents (t i : Byte) (contents : List Byte) : Option Demand :=
  if t = 0 then (parseAxisFields contents).map (.writeAxis i)
  else if t = 1 then (parseGroupFields contents).map (.writeGroup i)
  else if t = 2 then (parsePairFields contents).map (.writePair i)
  else if t = 3 then (parseExtentFields contents).map (.writeExtent i)
  else if t = 5 then
    match contents with
    | [form, p3, p2, p1, p0, sn, ac, z] => some (.writeWaypoint i (parseWaypoint form p3 p2 p1 p0 sn ac z))
    | _ => none
  else if t = 6 then
    match contents with
    | [level, groups] => some (.writeInput i level groups)
    | _ => none
  else if t = 7 then (parseSettings contents).map (.writeSettings i)
  else if t = 8 then
    match contents with
    | [source] => some (.writeSchedule i source)
    | _ => none
  else none

/-- WRITE_ENTRY: table, index, contents; naming ZONE it is refused whatever its length (R167). -/
def parseWrite : List Byte → Demand
  | [] => .unknown
  | [t] => if t = 4 then .writeZone else .unknown
  | t :: i :: contents => if t = 4 then .writeZone else (parseContents t i contents).getD .unknown

/-- PERMIT_KEY: the key is compared whole (R93). -/
def parseKey : List Byte → Demand
  | [g, k1, k0] =>
    if word16 k1 k0 = Config.keyArm then .keyArm g
    else if word16 k1 k0 = Config.keyRun then .keyRun g
    else .keyOther g
  | _ => .unknown

/-- One byte of parameters. -/
def oneByte (f : Byte → Demand) : List Byte → Demand
  | [x] => f x
  | _ => .unknown

/-- Two bytes of parameters. -/
def twoBytes (f : Byte → Byte → Demand) : List Byte → Demand
  | [x, y] => f x y
  | _ => .unknown

/-- No parameters. -/
def noBytes (d : Demand) : List Byte → Demand
  | [] => d
  | _ => .unknown

/-- CREEP_START: group, duration. -/
def parseCreepStart : List Byte → Demand
  | [g, d1, d0] => .creepStart g (word16 d1 d0)
  | _ => .unknown

/-- A request code and its parameters (section 10.2, R166, R167). -/
def parseRequest (code : Byte) (params : List Byte) : Demand :=
  if code = 0 then parseRead params
  else if code = 1 then parseWrite params
  else if code = 2 then parseKey params
  else if code = 3 then oneByte .park params
  else if code = 4 then oneByte .forceTrip params
  else if code = 5 then oneByte .clearTrip params
  else if code = 6 then twoBytes .claimZone params
  else if code = 7 then twoBytes .releaseZone params
  else if code = 8 then oneByte .linkCheck params
  else if code = 9 then parseCreepStart params
  else if code = 10 then oneByte .creepStop params
  else if code = 11 then oneByte .creepResult params
  else if code = 12 then noBytes .loadSchedule params
  else if code = 13 then noBytes .readTripRecord params
  else if code = 14 then noBytes .rewindTripRecords params
  else if code = 15 then oneByte .readStatus params
  else if code = 16 then noBytes .clearCounters params
  else if code = 17 then noBytes .softReset params
  else .unknown

/-- What a queued request asks; one with no code byte asks nothing known (R146). -/
def Request.demand (r : Request) : Demand :=
  match r.code with
  | some code => parseRequest code r.params
  | none => .unknown

/-! ## Trip records (R168) -/

def Snapshot.bytes (p : Snapshot) : List Byte :=
  natByte p.axis ::
    match p.sample with
    | some l => (l.flags.toByte ||| 0x80#8) :: bytes32 l.position ++ bytes16 l.velocity ++ bytes16 l.cycle
    | none => [0, 0, 0, 0, 0, 0, 0, 0, 0]

/-- Snapshots in parts of up to five, with structural fuel. -/
def snapshotParts : Nat → List Snapshot → List (List Byte)
  | 0, _ => []
  | _ + 1, [] => []
  | n + 1, p :: ps => (((p :: ps).take 5).flatMap Snapshot.bytes) :: snapshotParts n ((p :: ps).drop 5)

/-- Each part with its part byte: number high, count low. -/
def numberParts (parts : List (List Byte)) : List (List Byte) :=
  parts.mapIdx fun i p => natByte (i * 16 + parts.length) :: p

/-- The parts of a reply that carries a record. -/
def TripRecord.parts (slot : Fin 8) (r : TripRecord) : List (List Byte) :=
  numberParts
    ((natByte slot :: bytes16 r.number ++ [natByte r.group, r.cause.cause.code] ++ r.cause.subject.bytes
        ++ [optIndex r.origin, r.left.code] ++ bytes16 r.cycle ++ bytes32 r.stamp ++ [natByte r.snapshots.length]
        ++ (r.snapshots.take 3).flatMap Snapshot.bytes)
      :: snapshotParts r.snapshots.length (r.snapshots.drop 3))

end Sys2Proof.Machine
end

