-- ==== Sys2Proof/Machine/Ops.lean ====
section
/-! DEFINITION. The shared operations: free values, the membership index, reports, the control-link scheduler,
checked reads, trips with their consequences, the ends of link checks and creep runs, and the egress arbiters. -/

namespace Sys2Proof.Machine

/-- Change element i of a vector. -/
def upd {α : Type} {n : Nat} (v : Vector α n) (i : Fin n) (f : α → α) : Vector α n := v.set i (f v[i])

/-! ## Free values (log 22) -/

/-- The permutation of 0 .. n-1 a list spells: its first mention of each number below n, then the numbers it does
not mention, ascending. Every permutation is spelled by some list. -/
def orderOf (n : Nat) (l : List Nat) : List Nat :=
  let named := (l.filter (· < n)).eraseDups
  named ++ (List.range n).filter (fun k => !named.contains k)

/-- The list in the order spelled. -/
def permute {α : Type} (order : List Nat) (l : List α) : List α := (orderOf l.length order).filterMap (l[·]?)

/-- A list of things taken at one event in no stated order, in a free order. Nothing is drawn for fewer than two. -/
def State.inFreeOrder {α : Type} (l : List α) (s : State) : List α × State :=
  match l with
  | [] => ([], s)
  | [x] => ([x], s)
  | x :: y :: rest =>
    (permute (Config.freeOrder s.freeCount) (x :: y :: rest), { s with freeCount := s.freeCount + 1 })

/-- One of several, freely; nothing is drawn for fewer than two. -/
def State.pick {α : Type} (l : List α) (s : State) : Option α × State :=
  match l with
  | [] => (none, s)
  | [x] => (some x, s)
  | x :: y :: rest =>
    ((x :: y :: rest)[Config.freeIndex s.freeCount % (rest.length + 2)]?, { s with freeCount := s.freeCount + 1 })

/-! ## The membership index (R4) -/

def State.groupOf (s : State) (a : AxisIx) : Option GroupIx := s.tables.index[a].group
def State.pairOf (s : State) (a : AxisIx) : Option PairIx := s.tables.index[a].pair

/-- The members of a group by the index, ascending. -/
def State.members (s : State) (g : GroupIx) : List AxisIx :=
  (List.finRange 64).filter fun a => s.groupOf a == some g

/-- The axes of a pair by the index, ascending. -/
def State.pairAxes (s : State) (p : PairIx) : List AxisIx :=
  (List.finRange 64).filter fun a => s.pairOf a == some p

def State.permitState (s : State) (g : GroupIx) : PermitState := s.permits[g].state

/-- The group is locked: PRIMED, LIVE or TRIPPED (R6). -/
def State.lockedGroup (s : State) (g : Option GroupIx) : Bool :=
  match g with
  | some g => s.permitState g != .disarmed
  | none => false

/-- The group of a pair by the index (R6, R141). -/
def State.pairGroup (s : State) (p : PairIx) : Option GroupIx :=
  match s.pairAxes p with
  | a :: _ => s.groupOf a
  | [] => none

/-- The contents a read of the record uses: corrected where one bit is in error, else as held (R138, R139). -/
def Stored.seen {F : Type} (r : Stored F) : F :=
  if r.poisoned then r.held
  else match r.check with
    | .single f => f
    | .lasting f => f
    | .clean => r.held
    | .uncorrectable => r.held

/-- The axis an extent names, by its contents as a read uses them (R81, R138, R139; log 11). -/
def State.extentAxis (s : State) (x : ExtentIx) : Option AxisIx := axisOfByte s.tables.extents[x].seen.axis

/-- The axis an extent names, by its contents as held (R38, R141). -/
def State.heldExtentAxis (s : State) (x : ExtentIx) : Option AxisIx := axisOfByte s.tables.extents[x].held.axis

/-- The extents that a test of an axis that qualifies reads, ascending: those whose axis field names it as held (R38) or
as the check corrects it (R81). One that a read corrects to another axis is then not of this one (log 11). -/
def State.extentsOf (s : State) (q : AxisIx → Bool) : List ExtentIx :=
  (List.finRange 128).filter fun x => (s.heldExtentAxis x).any q || (s.extentAxis x).any q

/-- A live extent (R81). -/
def State.liveExtent (s : State) (x : ExtentIx) : Bool :=
  !s.tables.extents[x].poisoned && s.tables.extents[x].held.valid

/-- The position lies in the extent's interval (R65, R83). -/
def ExtentFields.holds (f : ExtentFields) (position : Word32) : Bool :=
  inInterval position.toInt f.low.toInt f.high.toInt

/-- The zone a byte names is owned by the group; none owns nothing (R43, R65, R66). -/
def State.zoneOwnedBy (s : State) (zone : Byte) (g : Option GroupIx) : Bool :=
  match ixOfByte 16 zone, g with
  | some z, some g => s.zones[z] == some g
  | _, _ => false

/-- A line is active while its held level equals the active level of its map entry (R122). -/
def InputLine.isActive (l : InputLine) : Bool := l.held == l.active

/-- The lowest active line that maps the group (R94, R104). -/
def State.activeLineFor (s : State) (g : GroupIx) : Option LineIx :=
  (List.finRange 8).find? fun l => s.inputs[l].isActive && inGroupSet s.inputs[l].groups g

/-! ## Reports and the control-link scheduler (chapters 10 and 11) -/

/-- What posting a report reads: the mask, and the cycle number and timebase at posting (R150, R151). -/
structure PostContext where
  mask : Word16
  cycle : Word16
  stamp : Word32

def State.postContext (s : State) : PostContext := ⟨s.settings.reportMask, s.timer.cycle, s.timer.timebase⟩

/-- The mask enables the kind; TRIP is always enabled (R147, R151). -/
def reportEnabled (mask : Word16) (k : ReportKind) : Bool := k == .trip || mask.getLsbD k.index

/-- One more lost report on the newest queued one (R152). -/
def bumpNewest : List Report → List Report
  | [] => []
  | [r] => [{ r with overrun := satInc r.overrun }]
  | r :: rs => r :: bumpNewest rs

def Report.isTrip (r : Report) : Bool := r.body.kind == .trip

/-- Remove the newest queued report that is not TRIP (R152). -/
def dropNewestOther (rs : List Report) : List Report := (rs.reverse.eraseP fun r => !r.isTrip).reverse

/-- Place an enabled report by the state of the queue (R152). -/
def ClSide.placeReport (r : Report) (c : ClSide) : ClSide :=
  if c.reports.length < Config.reportCapacity then { c with reports := c.reports ++ [r] }
  else if r.isTrip && c.reports.any (fun q => !q.isTrip) then
    { c with reports := bumpNewest (dropNewestOther c.reports) ++ [r], overrunTotal := satInc c.overrunTotal }
  else { c with reports := bumpNewest c.reports, overrunTotal := satInc c.overrunTotal }

/-- Test the mask, then place (R151, R152). -/
def ClSide.queueReport (ctx : PostContext) (b : ReportBody) (c : ClSide) : ClSide :=
  if reportEnabled ctx.mask b.kind then c.placeReport ⟨b, ctx.cycle, ctx.stamp, 0⟩ else c

/-- A source has a frame waiting while its queue holds an entry (chapter 11). -/
def ClSide.waiting (c : ClSide) : Source → Bool
  | .reply => !c.replies.isEmpty
  | .report => !c.reports.isEmpty
  | .seg n => !c.forward[n].isEmpty

def ClSide.anyWaiting (c : ClSide) : Bool := Source.all.any c.waiting

/-- The first of the phases low .. high-1 of the live table whose source has a frame waiting (R155). -/
def ClSide.firstPhase (c : ClSide) (low high : Nat) : Option (Fin 32) :=
  (List.finRange 32).find? fun k => decide (low ≤ k.val) && decide (k.val < high) && c.waiting c.schedule.live[k]

/-- Take the head of a source and transmit it (R155). -/
def ClSide.takeFrom (c : ClSide) : Source → ClSide
  | .reply =>
    match c.replies with
    | r :: rs => { c with replies := rs, tx := some r.frames }
    | [] => c
  | .report =>
    match c.reports with
    | r :: rs => { c with reports := rs, tx := some [r.frame] }
    | [] => c
  | .seg n =>
    match c.forward[n] with
    | e :: es => { c with forward := c.forward.set n es, tx := some [forwardFrame e] }
    | [] => c

/-- The phase found: take its source, and move the pointer past it (R155). -/
def ClSide.takePhase (c : ClSide) (k : Fin 32) : ClSide :=
  let c' := c.takeFrom c.schedule.live[k]
  { c' with schedule := { c'.schedule with pointer := k + 1 } }

def ClSide.takeFound (c : ClSide) : Option (Fin 32) → ClSide
  | some k => c.takePhase k
  | none => c

/-- How many phases of a table name each source, in the order of R157. -/
def phaseCounts (t : Vector Source 32) : List Nat := Source.all.map fun src => t.toList.count src

/-- A load takes effect: shadow to live, flag cleared, report queued (R158). -/
def ClSide.load (ctx : PostContext) (way : LoadWay) (c : ClSide) : ClSide :=
  { c with schedule := { c.schedule with live := c.schedule.shadow, loadPending := false } }.queueReport ctx
    (.scheduleLoaded (phaseCounts c.schedule.shadow) way)

/-- A selection (R155, R158). Phases from the pointer to 31 under the live table; a pending load is made before
phase 0 is examined, and the new table is then examined from phase 0 on (log 9). The walk alone decides between a reply
and a report that both wait; a TRIP report of a soft reset's evaluation is not posted before its reply has left the queue
(R125, State.resetReplyWaits). -/
def ClSide.select (ctx : PostContext) (c : ClSide) : ClSide :=
  if c.schedule.pointer = 0 && c.schedule.loadPending then
    let c' := c.load ctx .phase0
    c'.takeFound (c'.firstPhase 0 32)
  else
    match c.firstPhase c.schedule.pointer.val 32 with
    | some k => c.takePhase k
    | none =>
      if c.schedule.loadPending then
        let c' := c.load ctx .phase0
        c'.takeFound (c'.firstPhase 0 32)
      else c.takeFound (c.firstPhase 0 c.schedule.pointer.val)

/-- A source has received an entry: an IDLE transmitter makes a selection (R155). -/
def ClSide.kick (ctx : PostContext) (c : ClSide) : ClSide :=
  if c.tx.isNone && c.anyWaiting then c.select ctx else c

/-- Post a report: mask, place, and a selection when the transmitter is IDLE. -/
def ClSide.post (ctx : PostContext) (b : ReportBody) (c : ClSide) : ClSide := (c.queueReport ctx b).kick ctx

/-- A load made while the transmitter is IDLE with every source empty: the pointer goes to 0 (R158). -/
def ClSide.loadIdle (ctx : PostContext) (c : ClSide) : ClSide :=
  ({ c with schedule := { c.schedule with pointer := 0 } }.load ctx .idle).kick ctx

/-- The end of a transmission (R155, R158). -/
def ClSide.endTransmission (ctx : PostContext) (c : ClSide) : ClSide :=
  let c' := { c with tx := none }
  if c'.anyWaiting then c'.select ctx
  else if c'.schedule.loadPending then c'.loadIdle ctx
  else c'

/-- Change the CL side. -/
def State.onCl (f : PostContext → ClSide → ClSide) (s : State) : State := { s with cl := f s.postContext s.cl }

/-- A block posts a report in its own event (R150). -/
def State.post (b : ReportBody) (s : State) : State := s.onCl fun ctx => ClSide.post ctx b

/-! ## Updates by index -/

def State.modAxis (a : AxisIx) (f : AxisRecord → AxisRecord) (s : State) : State :=
  { s with axisRec := upd s.axisRec a f }
def State.modPair (p : PairIx) (f : PairRecord → PairRecord) (s : State) : State :=
  { s with pairRec := upd s.pairRec p f }
def State.modPermit (g : GroupIx) (f : Permit → Permit) (s : State) : State :=
  { s with permits := upd s.permits g f }
def State.setBrk (g : GroupIx) (b : Bool) (s : State) : State := { s with brk := s.brk.set g b }
def State.modCheck (sg : SegIx) (f : LinkCheck → LinkCheck) (s : State) : State :=
  { s with checks := upd s.checks sg f }
def State.modCreep (g : GroupIx) (f : CreepRun → CreepRun) (s : State) : State :=
  { s with creep := upd s.creep g f }
def State.modTables (f : TableStore → TableStore) (s : State) : State := { s with tables := f s.tables }
def State.modEgress (f : Egress → Egress) (s : State) : State := { s with egress := f s.egress }
def State.modSegPort (sg : SegIx) (f : SegPort → SegPort) (s : State) : State :=
  { s with segPorts := upd s.segPorts sg f }
def State.modClPort (f : ClPort → ClPort) (s : State) : State := { s with clPort := f s.clPort }

/-- A trip request leaves a block as an event still to be taken (R67, R121, R124, R164; log 6). -/
def State.send (from_ : TripSender) (r : TripRequest) (s : State) : State :=
  { s with inFlight := s.inFlight ++ [(from_, r)] }

/-! ## Checked reads (R138 to R141) -/

/-- The outcome of the check of one read (R138). -/
inductive ReadOutcome where
  | clean | single | uncorrectable | already
  deriving DecidableEq, Repr

def Stored.outcome {F : Type} (r : Stored F) : ReadOutcome :=
  if r.poisoned then .already
  else match r.check with
    | .clean => .clean
    | .single _ => .single
    | .lasting _ => .single
    | .uncorrectable => .uncorrectable

/-- Write back the corrected contents with fresh check bits; a lasting error shows again at the next read (R139). -/
def Stored.correct {F : Type} (r : Stored F) : Stored F :=
  match r.check with
  | .single f => { r with held := f, check := .clean }
  | .lasting f => { r with held := f }
  | .clean => r
  | .uncorrectable => r

/-- Set the poisoned mark; the held contents are kept (R140). -/
def Stored.poison {F : Type} (r : Stored F) : Stored F := { r with poisoned := true }

def TableStore.outcome (t : TableStore) : EntryRef → ReadOutcome
  | .axis a => t.axes[a].outcome
  | .group g => t.groups[g].outcome
  | .pair p => t.pairs[p].outcome
  | .extent x => t.extents[x].outcome

def TableStore.isPoisoned (t : TableStore) : EntryRef → Bool
  | .axis a => t.axes[a].poisoned
  | .group g => t.groups[g].poisoned
  | .pair p => t.pairs[p].poisoned
  | .extent x => t.extents[x].poisoned

/-- Index of an entry in its table (R144). -/
def EntryRef.index : EntryRef → Nat
  | .axis a => a | .group g => g | .pair p => p | .extent x => x

def EntryRef.table : EntryRef → ProtectedTable
  | .axis _ => .axis | .group _ => .group | .pair _ => .pair | .extent _ => .extent

def TableStore.errors (t : TableStore) : ProtectedTable → ErrorStatus
  | .axis => t.axisErrors
  | .group => t.groupErrors
  | .pair => t.pairErrors
  | .extent => t.extentErrors

def TableStore.modErrors (p : ProtectedTable) (f : ErrorStatus → ErrorStatus) (t : TableStore) : TableStore :=
  match p with
  | .axis => { t with axisErrors := f t.axisErrors }
  | .group => { t with groupErrors := f t.groupErrors }
  | .pair => { t with pairErrors := f t.pairErrors }
  | .extent => { t with extentErrors := f t.extentErrors }

def TableStore.correct (t : TableStore) : EntryRef → TableStore
  | .axis a => { t with axes := upd t.axes a Stored.correct }
  | .group g => { t with groups := upd t.groups g Stored.correct }
  | .pair p => { t with pairs := upd t.pairs p Stored.correct }
  | .extent x => { t with extents := upd t.extents x Stored.correct }

def TableStore.poison (t : TableStore) : EntryRef → TableStore
  | .axis a => { t with axes := upd t.axes a Stored.poison }
  | .group g => { t with groups := upd t.groups g Stored.poison }
  | .pair p => { t with pairs := upd t.pairs p Stored.poison }
  | .extent x => { t with extents := upd t.extents x Stored.poison }

/-- Steps 1 to 3 of R139. -/
def TableStore.noteCorrected (e : EntryRef) (t : TableStore) : TableStore :=
  (t.correct e).modErrors e.table fun st =>
    { st with corrected := satInc st.corrected, last := .corrected e.index }

/-- Steps 1 to 3 of R140. -/
def TableStore.notePoisoned (e : EntryRef) (t : TableStore) : TableStore :=
  (t.poison e).modErrors e.table fun st => { st with uncorrectable := true, last := .uncorrectable e.index }

/-- The group an error belongs to (R141). -/
def State.namedGroup (s : State) : EntryRef → Option GroupIx
  | .axis a => s.groupOf a
  | .group g => some g
  | .pair p => s.pairGroup p
  | .extent x => (s.heldExtentAxis x).bind s.groupOf

/-- A single-bit error is corrected (R139). -/
def State.correctEntry (b : ReadingBlock) (e : EntryRef) (s : State) : State :=
  let s1 := s.modTables (·.noteCorrected e)
  s1.post (.tableError e (.corrected (s1.tables.errors e.table).corrected) b)

/-- The record returns to IDLE with its phase kept, and the slot is emptied when the CHECK was not sent (R130,
R131). -/
def State.closeCheck (sg : SegIx) (s : State) : State :=
  let s1 := s.modCheck sg fun r => { r with inFlight := false }
  if s.checks[sg].sent then s1 else s1.modEgress fun e => { e with checkSlot := e.checkSlot.set sg none }

/-- A link check ends, with its report (R131). -/
def State.endCheck (sg : SegIx) (outcome : CheckOutcome) (echo : Option (Word16 × Mounting)) (s : State) : State :=
  let r := s.checks[sg]
  (s.closeCheck sg).post (.linkCheckDone r.axis outcome sg r.phase r.expected echo r.stale)

/-- End ABORTED the checks in flight, on the segments listed, whose axis qualifies (R130). -/
def State.abortChecks (q : AxisIx → Bool) (segs : List SegIx) (s : State) : State :=
  segs.foldl (fun s sg => if s.checks[sg].inFlight && q s.checks[sg].axis then s.endCheck sg .aborted none else s) s

/-- Remove every entry of an axis from the four setpoint and four sample-forward queues (R8, R140). -/
def State.dropAxisEntries (a : AxisIx) (s : State) : State :=
  { s with
    egress := { s.egress with setpoints := s.egress.setpoints.map (·.filter fun e => e.axis != a) }
    cl := { s.cl with forward := s.cl.forward.map (·.filter fun e => e.axis != a) } }

/-- The TABLE_FAULT request of a poisoning, to the group named if there is one (R140 step 5). -/
def State.tableFault (trip : TripRequest → State → State) (e : EntryRef) (g : Option GroupIx) (s : State) : State :=
  match g with
  | some g => trip ⟨g, ⟨.tableFault, .entry e⟩, none⟩ s
  | none => s

/-- What a poisoned axis entry leaves behind: its link check ended, its queue entries removed (R140 steps 6, 7). -/
def State.afterPoison (e : EntryRef) (s : State) : State :=
  match e with
  | .axis a => (s.abortChecks (· == a) (List.finRange 4)).dropAxisEntries a
  | .group _ => s
  | .pair _ => s
  | .extent _ => s

/-- An uncorrectable error poisons the entry (R140). The permit unit takes the trip request in the same event:
`trip` is that taking. -/
def State.poisonEntry (trip : TripRequest → State → State) (b : ReadingBlock) (e : EntryRef) (s : State) : State :=
  let s1 := s.modTables (·.notePoisoned e)
  let g := s1.namedGroup e
  ((s1.post (.tableError e (.uncorrectable g) b)).tableFault trip e g).afterPoison e

/-- A read through the check of the check bits, with its integrity actions (R138). The contents read are those the
entry then holds. -/
def State.touchWith (trip : TripRequest → State → State) (b : ReadingBlock) (e : EntryRef) (s : State) : State :=
  match s.tables.outcome e with
  | .clean => s
  | .already => s
  | .single => s.correctEntry b e
  | .uncorrectable => s.poisonEntry trip b e

/-! ## Trips (chapters 6 and 7) -/

/-- The members of a group for the trip unit (R111): the written list of a valid entry, none for an entry not
valid, the index for a poisoned one. -/
def State.memberList (s : State) (g : GroupIx) : List AxisIx :=
  if s.tables.groups[g].poisoned then s.members g
  else if s.tables.groups[g].held.valid then s.tables.groups[g].held.members.filterMap axisOfByte
  else []

/-- The groups a trip of g is passed on to (R111, R121). -/
def State.propagationTargets (s : State) (g : GroupIx) : List GroupIx :=
  if s.tables.groups[g].poisoned then (List.finRange 8).filter (· != g)
  else if s.tables.groups[g].held.valid then groupsOf s.tables.groups[g].held.propagation
  else []

/-- Add to a set held as an ascending list (R112). -/
def insertAxis (a : AxisIx) : List AxisIx → List AxisIx
  | [] => [a]
  | b :: l => if a < b then a :: b :: l else if a = b then b :: l else b :: insertAxis a l

/-- Owe a STOP to an axis: read its entry for the segment, and add it there (R112, R113). The members' entries are read
in the order of the member list, each just before its axis is added (log 11). -/
def State.oweStop (trip : TripRequest → State → State) (s : State) (a : AxisIx) : State :=
  let s1 := s.touchWith trip .trip (.axis a)
  match segOfByte s1.tables.axes[a].held.segment with
  | some sg => s1.modEgress fun e => { e with stopSet := upd e.stopSet sg (insertAxis a) }
  | none => s1

/-- Purge group g: every POSITION entry of its members leaves the setpoint queues (R49). -/
def State.purgeGroup (g : GroupIx) (s : State) : State :=
  s.modEgress fun e => { e with
    setpoints := e.setpoints.map (·.filter fun q => !(q.mode == .position && s.groupOf q.axis == some g)) }

/-- A creep run ends and is reported; the check unit reads the creep limit (R133, R135, R136). -/
def State.endCreep (trip : TripRequest → State → State) (g : GroupIx) (state : CreepState)
    (verdict : Stored GroupFields → CreepRun → Verdict) (abort : Option CreepAbort) (s : State) : State :=
  let s1 := s.touchWith trip .check (.group g)
  let s2 := s1.modCreep g fun r => { r with state := state, verdict := verdict s1.tables.groups[g] r }
  s2.post (.creepDone g s2.creep[g] s1.tables.groups[g].held.creepLimit abort)

/-- The verdict of a run that ends DONE (R133). -/
def creepVerdict (entry : Stored GroupFields) (r : CreepRun) : Verdict :=
  if entry.poisoned then .fail else if r.accumulator.toNat ≤ entry.held.creepLimit.toNat then .pass else .fail

/-- A RUNNING run is aborted (R135). -/
def State.abortCreep (trip : TripRequest → State → State) (g : GroupIx) (why : CreepAbort) (s : State) : State :=
  if s.creep[g].state = .running then s.endCreep trip g .aborted (fun _ _ => .unknown) (some why) else s

/-- The record of a trip (R117). The snapshots are the latest samples at the transition, also where a sample's own
check made the trip and a later sample of the axis has come before its request was taken (log 6). -/
def State.tripRecord (r : TripRequest) (left : PermitState) (members : List AxisIx) (s : State) : TripRecord :=
  ⟨s.ring.number + 1, r.group, r.cause, r.origin, left, s.timer.cycle, s.timer.timebase,
    members.map fun a => ⟨a, s.axisRec[a].latest⟩⟩

/-- Into the slot at the write pointer, which moves on (R118). -/
def Ring.push (record : TripRecord) (r : Ring) : Ring :=
  { r with slots := r.slots.set r.writePtr (some record), writePtr := r.writePtr + 1, number := record.number }

/-- Steps 5 and 6 of R110: the record in the ring and the TRIP report (R117, R118, R120). -/
def State.recordTrip (r : TripRequest) (left : PermitState) (members : List AxisIx) (s : State) : State :=
  let record := s.tripRecord r left members
  { s with ring := s.ring.push record }.post
    (.trip r.group r.cause r.origin left s.ring.writePtr record.number members.length)

/-- Step 7 of R110: PROPAGATED requests, unless the cause is PROPAGATED (R121). -/
def State.propagate (r : TripRequest) (targets : List GroupIx) (s : State) : State :=
  if r.cause.cause = .propagated then s
  else targets.foldl (fun s h => s.send .tripUnit ⟨h, ⟨.propagated, .none⟩, some r.group⟩) s

/-- The trip unit takes "group tripped" (R110). -/
def State.tripUnitWork (trip : TripRequest → State → State) (r : TripRequest) (left : PermitState) (s : State) :
    State :=
  let s1 := s.touchWith trip .trip (.group r.group)
  let members := s1.memberList r.group
  let targets := s1.propagationTargets r.group
  let s2 := members.foldl (fun s a => s.oweStop trip a) s1
  let s3 := s2.purgeGroup r.group
  let s4 := s3.abortCreep trip r.group (.trip r.cause.cause)
  (s4.recordTrip r left members).propagate r targets

/-- The permit record of a group that trips (R102). -/
def Permit.toTripped (r : TripRequest) (p : Permit) : Permit :=
  { p with
    state := .tripped, lapse := 0, halfDone := false, cause := some r.cause, origin := r.origin, further := 0, age := 0 }

/-- The segments with a link check in flight on a member (R130). -/
def State.checkedSegments (s : State) (g : GroupIx) : List SegIx :=
  (List.finRange 4).filter fun sg => s.checks[sg].inFlight && s.groupOf s.checks[sg].axis == some g

/-- The transition to TRIPPED (R102). The ends of link checks (R130) and the trip unit's work (R110) follow in
the same event, in a free order (log 15); none stands for the trip unit. -/
def State.transition (trip : TripRequest → State → State) (r : TripRequest) (s : State) : State :=
  let left := s.permitState r.group
  let s1 := (s.modPermit r.group (·.toTripped r)).setBrk r.group false
  let jobs := s1.inFreeOrder ((s1.checkedSegments r.group).map some ++ [none])
  jobs.1.foldl (fun s job =>
    match job with
    | some sg => s.abortChecks (fun _ => true) [sg]
    | none => s.tripUnitWork trip r left) jobs.2

/-- The permit unit takes a trip request (R101). -/
def State.tripWith (trip : TripRequest → State → State) (r : TripRequest) (s : State) : State :=
  match s.permitState r.group with
  | .tripped => s.modPermit r.group fun p => { p with further := satInc p.further }
  | .disarmed => if r.cause.cause.commanded then s.transition trip r else s
  | .primed => s.transition trip r
  | .live => s.transition trip r

/-- Requests taken inside one event, nested to a depth. A nested request that trips a group leaves one group fewer
to trip, so nine levels are enough for eight groups (log 14). -/
def State.takeTrip : Nat → TripRequest → State → State
  | 0, _, s => s
  | n + 1, r, s => s.tripWith (State.takeTrip n) r

def tripDepth : Nat := 9

/-- The permit unit takes a trip request as one event (R101). -/
def State.trip (r : TripRequest) (s : State) : State := State.takeTrip tripDepth r s

/-- A checked read by a block (R138). -/
def State.touch (b : ReadingBlock) (e : EntryRef) (s : State) : State := s.touchWith State.trip b e

/-- Several checked reads, in order. -/
def State.touchAll (b : ReadingBlock) (es : List EntryRef) (s : State) : State :=
  es.foldl (fun s e => s.touch b e) s

/-! ## The segment egress arbiters (section 3.7) -/

/-- A source of the segment has a frame waiting (R52). -/
def Egress.waiting (e : Egress) (sg : SegIx) : Bool :=
  !e.stopSet[sg].isEmpty || e.beacon[sg] || !e.setpoints[sg].isEmpty || e.checkSlot[sg].isSome

/-- The segments whose transmitter is idle while a source has a frame waiting. -/
def Egress.idleWaiting (e : Egress) : List SegIx :=
  (List.finRange 4).filter fun sg => e.tx[sg].isNone && e.waiting sg

/-- Begin a transmission. -/
def State.transmit (sg : SegIx) (frame : List Byte) (s : State) : State :=
  s.modEgress fun e => { e with tx := e.tx.set sg (some frame) }

/-- Send a STOP: out of the set, station from the entry; a station not 1 to 32 gets none (R53). -/
def State.sendStop (sg : SegIx) (a : AxisIx) (s : State) : State :=
  let s1 := s.modEgress fun e => { e with stopSet := upd e.stopSet sg (·.filter (· != a)) }
  let s2 := s1.touch .egress (.axis a)
  let station := s2.tables.axes[a].held.station
  if isStation station then s2.transmit sg (stopFrame station) else s2

/-- Send the BEACON (R23, R53). -/
def State.sendBeacon (sg : SegIx) (s : State) : State :=
  (s.modEgress fun e => { e with beacon := e.beacon.set sg false }).transmit sg
    (beaconFrame s.timer.cycle s.timer.period)

/-- Send the head setpoint in drive coordinates; a poisoned axis entry withholds it (R54). -/
def State.sendSetpoint (sg : SegIx) (q : SetpointEntry) (s : State) : State :=
  let s1 := s.modEgress fun e => { e with setpoints := upd e.setpoints sg List.tail }
  let s2 := s1.touch .egress (.axis q.axis)
  let entry := s2.tables.axes[q.axis]
  if entry.poisoned then s2
  else s2.transmit sg (setpointFrame entry.held.station q.mode (byPolarity entry.held.mirrored q.target) q.cap)

/-- Send the CHECK; a poisoned axis entry withholds it (R55, R128). -/
def State.sendCheck (sg : SegIx) (c : CheckFrame) (s : State) : State :=
  let s1 := s.modEgress fun e => { e with checkSlot := e.checkSlot.set sg none }
  let s2 := s1.touch .egress (.axis c.axis)
  let entry := s2.tables.axes[c.axis]
  if entry.poisoned then s2
  else (s2.modCheck sg fun r => { r with sent := true }).transmit sg (checkFrame entry.held.station c.word)

/-- One choice of a segment's arbiter (R52). Which axis of the stop set is taken is free (log 8). -/
def State.choose (sg : SegIx) (s : State) : State :=
  match s.pick s.egress.stopSet[sg] with
  | (some a, s1) => s1.sendStop sg a
  | (none, s1) =>
    if s1.egress.beacon[sg] then s1.sendBeacon sg
    else match s1.egress.setpoints[sg] with
      | q :: _ => s1.sendSetpoint sg q
      | [] =>
        match s1.egress.checkSlot[sg] with
        | some c => s1.sendCheck sg c
        | none => s1

/-- Idle arbiters choose while one of them has a frame waiting. -/
def State.settleFor : Nat → State → State
  | 0, s => s
  | n + 1, s =>
    match s.pick s.egress.idleWaiting with
    | (some sg, s1) => State.settleFor n (s1.choose sg)
    | (none, s1) => s1

/-- More choices than one event can need: four that send, and those that withhold a frame (log 14). -/
def settleDepth : Nat := 4096

/-- The arbiters of idle transmitters choose as soon as a source has a frame waiting (R52). -/
def State.settle (s : State) : State := State.settleFor settleDepth s

end Sys2Proof.Machine
end

