-- ==== Sys2Proof/Machine/Ports.lean ====
section
/-! DEFINITION. The five link ports (chapter 12): receiving frames, silence, and the loss of a link. -/

namespace Sys2Proof.Machine

abbrev Result := Host.Outcome State Fault Refusal

/-! ## Counters and link state -/

def Port.countBad (p : Port) : Port := { p with bad := satInc p.bad }

def State.countBad (p : PortId) (s : State) : State :=
  match p with
  | .seg n => s.modSegPort n fun q => { q with port := q.port.countBad }
  | .cl => s.modClPort fun q => { q with port := q.port.countBad }

def State.portOf (s : State) : PortId → Port
  | .seg n => s.segPorts[n].port
  | .cl => s.clPort.port

def State.modPort (p : PortId) (f : Port → Port) (s : State) : State :=
  match p with
  | .seg n => s.modSegPort n fun q => { q with port := f q.port }
  | .cl => s.modClPort fun q => { q with port := f q.port }

/-- The silence limit the settings record gives a port (R160). -/
def State.silenceLimit (s : State) : PortId → Byte
  | .seg _ => s.settings.segSilence
  | .cl => s.settings.clSilence

/-- A valid frame: frame seen, silence 0, and a DOWN port goes UP with a report (R160). -/
def State.validFrame (p : PortId) (s : State) : State :=
  let was := (s.portOf p).link
  let s1 := s.modPort p fun q => { q with link := .up, silence := 0, seen := true }
  match was with
  | .up => s1
  | .down => s1.post (.portChange p .up 0)

/-! ## Receiving on CL (R161, R162) -/

/-- Checks 4 to 6 of R161 on CL. -/
def clAccepts (f : RawFrame) : Bool :=
  if f.kind = kindSetpoint then decide (f.address.toNat < 64) || f.address == 0xFF#8
  else if f.kind = kindRequest then f.address == 0xFF#8
  else if f.kind = kindAlive then f.address == 0xFF#8 && f.payload.isEmpty
  else false

/-- A SETPOINT joins the path to the admission unit, or is counted as bad when the path is full (R162). -/
def State.pathSetpoint (f : SetpointFrame) (s : State) : State :=
  if s.paths.setpoint.length < Config.pathCapacity then
    { s with paths := { s.paths with setpoint := s.paths.setpoint ++ [f] } }
  else s.countBad .cl

/-- A REQUEST joins the request queue, or is dropped and counted when it is full (R145). -/
def State.queueRequest (r : Request) (s : State) : State :=
  if s.requests.length < Config.requestCapacity then { s with requests := s.requests ++ [r] }
  else s.modClPort fun q => { q with dropped := satInc q.dropped }

/-- The CL port passes a valid frame on; an ALIVE goes no further (R162). -/
def State.routeCl (f : RawFrame) (s : State) : State :=
  if f.kind = kindSetpoint then s.pathSetpoint ⟨f.address, f.payload⟩
  else if f.kind = kindRequest then s.queueRequest ⟨f.tag, f.payload.head?, f.payload.tail⟩
  else s

/-- The frame of these bytes when it passes every check of R161 on CL. -/
def clFrameOf (bytes : List Byte) : Option RawFrame := (parseFrame bytes).filter clAccepts

/-- A frame received on CL (R161, R162). -/
def State.receiveCl (bytes : List Byte) (s : State) : State :=
  match clFrameOf bytes with
  | some f => (s.validFrame .cl).routeCl f
  | none => s.countBad .cl

/-! ## Receiving on a segment (R161, R162) -/

/-- Checks 4 to 6 of R161 on a segment. -/
def segAccepts (f : RawFrame) : Bool :=
  isStation f.address &&
    (if f.kind = kindSample then (parseSample 0 f.payload).isSome
     else if f.kind = kindEcho then (parseEcho 0 f.payload).isSome
     else false)

/-- The axes whose entry, as held, is valid and holds the segment and station (R3, R162). -/
def State.mapped (s : State) (sg : SegIx) (station : Byte) : List AxisIx :=
  (List.finRange 64).filter fun a =>
    let f := s.tables.axes[a].held
    f.valid && segOfByte f.segment == some sg && f.station == station && isStation f.station

/-- The station map: the entry that is not poisoned, else the lowest (R162). -/
def State.stationMap (s : State) (sg : SegIx) (station : Byte) : Option AxisIx :=
  match (s.mapped sg station).find? (fun a => !s.tables.axes[a].poisoned) with
  | some a => some a
  | none => (s.mapped sg station).head?

def State.pathSample (sg : SegIx) (f : SampleFrame) (s : State) : State :=
  if s.paths.sample[sg].length < Config.pathCapacity then
    { s with paths := { s.paths with sample := upd s.paths.sample sg (· ++ [f]) } }
  else s.countBad (.seg sg)

def State.pathEcho (sg : SegIx) (f : EchoFrame) (s : State) : State :=
  if s.paths.echo[sg].length < Config.pathCapacity then
    { s with paths := { s.paths with echo := upd s.paths.echo sg (· ++ [f]) } }
  else s.countBad (.seg sg)

/-- A SAMPLE goes to the sample monitor, an ECHO to the check unit, tagged with the axis (R162). -/
def State.routeMapped (sg : SegIx) (a : AxisIx) (f : RawFrame) (s : State) : State :=
  if f.kind = kindSample then
    match parseSample a f.payload with
    | some m => s.pathSample sg m
    | none => s
  else
    match parseEcho a f.payload with
    | some m => s.pathEcho sg m
    | none => s

/-- A valid segment frame is mapped, or counted as unmapped (R162). -/
def State.routeSeg (sg : SegIx) (f : RawFrame) (s : State) : State :=
  match s.stationMap sg f.address with
  | some a => s.routeMapped sg a f
  | none => s.modSegPort sg fun q => { q with unmapped := satInc q.unmapped }

/-- The frame of these bytes when it passes every check of R161 on a segment. -/
def segFrameOf (bytes : List Byte) : Option RawFrame := (parseFrame bytes).filter segAccepts

/-- A frame received on a segment (R161, R162). -/
def State.receiveSeg (sg : SegIx) (bytes : List Byte) (s : State) : State :=
  match segFrameOf bytes with
  | some f => (s.validFrame (.seg sg)).routeSeg sg f
  | none => s.countBad (.seg sg)

/-! ## Loss of a link (R163, R164) -/

/-- The axes whose entry, as held, names the segment (R163). -/
def State.axesOn (s : State) (sg : SegIx) : List AxisIx :=
  (List.finRange 64).filter fun a => segOfByte s.tables.axes[a].held.segment == some sg

/-- SGn goes DOWN: report, checked flags cleared, link check ended, SEGMENT_DOWN to the groups, which the permit
unit takes in the same event (R107, R163). -/
def State.segmentLoss (sg : SegIx) (s : State) : State :=
  let s1 := s.modPort (.seg sg) fun q => { q with link := .down }
  let s2 := s1.post (.portChange (.seg sg) .down (s.portOf (.seg sg)).silence)
  let lost := s2.axesOn sg
  let s3 := lost.foldl (fun s a => s.modAxis a fun r => { r with checked := false }) s2
  let s4 := if s3.checks[sg].inFlight then s3.endCheck sg .segmentDown none else s3
  let groups := (List.finRange 8).filter fun g => lost.any fun a => s4.groupOf a == some g
  groups.foldl (fun s g => s.trip ⟨g, ⟨.segmentDown, .port (.seg sg)⟩, none⟩) s4

/-- CL goes DOWN: report, and SUPERVISOR_LOST sent to each group (R164). -/
def State.clLoss (s : State) : State :=
  let s1 := s.modPort .cl fun q => { q with link := .down }
  let s2 := s1.post (.portChange .cl .down (s.portOf .cl).silence)
  (List.finRange 8).foldl (fun s g => s.send .clPort ⟨g, ⟨.supervisorLost, .port .cl⟩, none⟩) s2

def State.portLoss : PortId → State → State
  | .seg n, s => s.segmentLoss n
  | .cl, s => s.clLoss

/-- UP, with a silence count that has reached or passed the limit in use, and no frame seen (R160). -/
def State.silent (s : State) (p : PortId) : Bool :=
  (s.portOf p).link == .up && !(s.portOf p).seen && decide ((s.portOf p).limit.toNat ≤ (s.portOf p).silence.toNat)

/-- A port's response to the cycle start, which takes up the limit of the settings (R160). -/
def State.portCycle (p : PortId) (s : State) : State :=
  let limit := s.silenceLimit p
  if (s.portOf p).seen then s.modPort p fun q => { q with seen := false, limit := limit }
  else
    let s1 := s.modPort p fun q => { q with silence := satInc q.silence, limit := limit }
    if s1.silent p then s1.portLoss p else s1

/-! ## The commands -/

/-- CL_FRAME_RECEIVE. -/
def execClFrameReceive (bytes : List Byte) (s : State) : Result := .next (s.receiveCl bytes)

/-- SEGMENT_FRAME_RECEIVE. -/
def execSegmentFrameReceive (sg : SegIx) (bytes : List Byte) (s : State) : Result := .next (s.receiveSeg sg bytes)

/-- SEGMENT_DOWN: the loss of a segment whose silence count has reached its limit (log 4). -/
def execSegmentDown (sg : SegIx) (s : State) : Result :=
  .next (if s.silent (.seg sg) then (s.segmentLoss sg).settle else s)

/-- CL_DOWN: the loss of CL when its silence count has reached its limit (log 4). -/
def execClDown (s : State) : Result := .next (if s.silent .cl then s.clLoss else s)

/-- SEGMENT_TRANSMISSION_END: the frame has left, and the arbiter makes its next choice (R52). -/
def execSegmentTransmissionEnd (sg : SegIx) (s : State) : Result :=
  .next ((s.modEgress fun e => { e with tx := e.tx.set sg none }).settle)

/-- CL_TRANSMISSION_END: the frame has left, and the scheduler selects, loads or idles (R155, R158). -/
def execClTransmissionEnd (s : State) : Result :=
  .next (if s.cl.tx.isSome then s.onCl ClSide.endTransmission else s)

end Sys2Proof.Machine
end

