-- ==== Sys2Proof/Machine/Requests.lean ====
section
/-! DEFINITION. The management unit's taking of a request (R146), common to every request of section 10.2. -/

namespace Sys2Proof.Machine

/-- What the owning block returns: the state it leaves, a status, and the result data in its parts (R146, R168). -/
structure Answer where
  state : State
  status : Status
  parts : List (List Byte)

/-- An answer with one part of result data. -/
def Answer.of (s : State) (status : Status) (data : List Byte) : Answer := ⟨s, status, [data]⟩

/-- OK with result data. -/
def Answer.ok (s : State) (data : List Byte) : Answer := .of s .ok data

/-- A refusal with the result data that names what failed. -/
def Answer.refuse (s : State) (status : Status) (data : List Byte := []) : Answer := .of s status data

/-- The request the management unit may take now: the head, while the reply queue has room (R146) and no block has
yet to take a soft reset (log 20). -/
def State.takeable (s : State) : Option Request :=
  if s.resets.isEmpty && decide (s.cl.replies.length < Config.replyCapacity) then s.requests.head? else none

/-- The request leaves the queue (R146 step 1). -/
def State.popRequest (s : State) : State := { s with requests := s.requests.tail }

/-- A reply joins the reply queue; an IDLE transmitter makes a selection (R146, R155). -/
def State.pushReply (r : Reply) (s : State) : State :=
  s.onCl fun ctx c => { c with replies := c.replies ++ [r] }.kick ctx

/-- The code byte of the reply: the request's own, or an unstated byte when the request has none (log 17). -/
def State.replyCode (q : Request) (s : State) : Byte × State :=
  match q.code with
  | some c => (c, s)
  | none => (Config.freeByte s.freeCount, { s with freeCount := s.freeCount + 1 })

/-- Step 4 of R146: form the reply and queue it. -/
def Answer.reply (q : Request) (r : Answer) : State :=
  let code := r.state.replyCode q
  code.2.pushReply ⟨q.tag, code.1, r.status, r.state.timer.cycle, r.parts⟩

/-- The management unit takes the head request when it is one the row is for: `handle` gives the owning block's
work on it. When it is not, or when no request can be taken, the row's event does not happen (log 7). -/
def State.serve (handle : Demand → Option (State → Answer)) (s : State) : State :=
  match s.takeable with
  | none => s
  | some q =>
    match handle q.demand with
    | none => s
    | some work => ((work s.popRequest).reply q).settle

/-- An index in range, or BAD_INDEX. -/
def withIndex (n : Nat) (b : Byte) (s : State) (f : Fin n → State → Answer) : Answer :=
  match ixOfByte n b with
  | some i => f i s
  | none => .refuse s .badIndex

/-- UNKNOWN_REQUEST: refused BAD_REQUEST (R146). That the refusal of a READ_TRIP_RECORD whose parameters are not empty
carries no part byte is the model's choice (R168; log 16). -/
def execUnknownRequest (s : State) : Result :=
  .next (s.serve fun d => match d with
    | .unknown => some fun s => .refuse s .badRequest
    | _ => none)

end Sys2Proof.Machine
end

