-- ==== Sys2Proof/Machine/Admission.lean ====
section
/-! DEFINITION. Setpoint admission (chapter 3, sections 3.1 to 3.5): SETPOINT frames taken as events. -/

namespace Sys2Proof.Machine

/-! ## The setpoint queues (R34) -/

/-- In place of the axis's entry, or at the tail (R34). -/
def placeSetpoint (e : SetpointEntry) (q : List SetpointEntry) : List SetpointEntry :=
  if q.any (·.axis == e.axis) then q.map fun x => if x.axis = e.axis then e else x else q ++ [e]

/-- Onto the queue of the segment the axis entry holds, without a read of its own (R34; log 11). -/
def State.enqueue (e : SetpointEntry) (s : State) : State :=
  match segOfByte s.tables.axes[e.axis].held.segment with
  | some sg => s.modEgress fun q => { q with setpoints := upd q.setpoints sg (placeSetpoint e) }
  | none => s

/-- The lesser of the frame's cap and the velocity limit (R35, R44). -/
def capFor (cap limit : Word16) : Word16 := if limit.toNat < cap.toNat then limit else cap

/-- A HOLD in place: none for an axis with no latest sample or a poisoned entry (R40). -/
def State.holdInPlace (s : State) (a : AxisIx) : State :=
  match s.axisRec[a].latest with
  | some l => if s.tables.axes[a].poisoned then s else s.enqueue ⟨a, .hold, l.position, 0, l.position⟩
  | none => s

/-- A refusal is reported once in a run of refusals (R45). -/
def State.refuseSetpoint (a : AxisIx) (reason : RefusalReason) (p : SetpointPayload) (follow : Option AxisIx)
    (s : State) : State :=
  if s.axisRec[a].refusalReported then s
  else (s.post (.setpointRefused a reason p.mode p.target follow)).modAxis a fun r => { r with refusalReported := true }

/-! ## HOLD and BRAKE (R35) -/

/-- A HOLD or BRAKE is queued, with the velocity limit of the entry as the unit's one read of it has left it (R35;
log 11). -/
def State.queueRest (a : AxisIx) (p : SetpointPayload) (target : Word32) (s : State) : State :=
  s.enqueue ⟨a, p.mode, target, capFor p.cap s.tables.axes[a].held.velocityLimit, target⟩

def State.admitHold (a : AxisIx) (p : SetpointPayload) (s : State) : State :=
  let s1 := s.touch .admission (.axis a)
  let entry := s1.tables.axes[a]
  if entry.poisoned || !entry.held.valid then s1.refuseSetpoint a .invalidAxis p none
  else match s1.axisRec[a].latest with
    | none => s1.refuseSetpoint a .noSample p none
    | some l => s1.queueRest a p l.position

def State.admitBrake (a : AxisIx) (p : SetpointPayload) (s : State) : State :=
  let s1 := s.touch .admission (.axis a)
  let entry := s1.tables.axes[a]
  if entry.poisoned || !entry.held.valid then s1.refuseSetpoint a .invalidAxis p none
  else match s1.axisRec[a].latest with
    | none => s1.queueRest a p p.target
    | some l => s1.queueRest a p l.position

/-! ## POSITION: checks 1 to 6 (R36 to R39, R46) -/

/-- A check: what its reads leave, and the reason it fails for. -/
abbrev Check := State → State × Option RefusalReason

/-- Make checks in order up to the first that fails (R36). -/
def runChecks : List Check → State → State × Option RefusalReason
  | [], s => (s, none)
  | c :: cs, s =>
    match c s with
    | (s1, some r) => (s1, some r)
    | (s1, none) => runChecks cs s1

/-- A check that reads no record. -/
def pureCheck (reason : RefusalReason) (fails : State → Bool) : Check := fun s =>
  (s, if fails s then some reason else none)

/-- Check 1 (R37). -/
def checkValid (a : AxisIx) : Check := fun s =>
  let s1 := s.touch .admission (.axis a)
  let entry := s1.tables.axes[a]
  (s1, if !entry.poisoned && !entry.held.valid then some .invalidAxis else none)

/-- Check 2 (R37). -/
def checkGroup (a : AxisIx) : Check := pureCheck .noGroup fun s => (s.groupOf a).isNone

/-- Check 3 reads the permit state as it stood when the frame was taken (R37). -/
def checkLive (taken : State) (a : AxisIx) : Check :=
  pureCheck .notLive fun _ => (taken.groupOf a).any fun g => taken.permitState g != .live

/-- The entries that touch a setpoint (R38), in its order. -/
def State.touching (s : State) (a : AxisIx) : List EntryRef :=
  .axis a :: ((s.groupOf a).map EntryRef.group).toList ++ ((s.pairOf a).map EntryRef.pair).toList
    ++ (s.extentsOf (· == a)).map .extent

/-- Check 4 (R38), on the extents whose axis field names the axis as held, and on those it names as corrected (log 11). -/
def checkPoisoned (a : AxisIx) : Check := fun s =>
  let es := s.touching a
  let s1 := s.touchAll .admission es
  (s1, if es.any s1.tables.isPoisoned then some .poisoned else none)

/-- Check 5 (R39). -/
def checkFollower (a : AxisIx) : Check := pureCheck .followerAddressed fun s =>
  (s.pairOf a).any fun p =>
    let f := s.tables.pairs[p].held
    f.valid && f.dualCast && f.follow == natByte a

/-- Check 6 (R39). -/
def checkSample (a : AxisIx) : Check := pureCheck .noSample fun s =>
  s.axisRec[a].latest.isNone || s.axisRec[a].missCount != 0

/-- The follow with which the axis is admitted as one unit (R46): its pair's entry as read, valid, not poisoned,
dual-cast and led by the axis. -/
def State.unitFollow (a : AxisIx) (s : State) : Option AxisIx :=
  (s.pairOf a).bind fun p =>
    let r := s.tables.pairs[p]
    if r.held.valid && !r.poisoned && r.held.dualCast && r.held.lead == natByte a then axisOfByte r.held.follow
    else none

/-- The admission unit's read of the pair entry of an axis (R38, R46). -/
def State.readPair (a : AxisIx) (s : State) : State :=
  match s.pairOf a with
  | some p => s.touch .admission (.pair p)
  | none => s

/-- Checks 1 to 6 for the axes of the setpoint, the lead first; check 5 is for the lead alone (R36, R46). -/
def firstChecks (taken : State) (a : AxisIx) (axes : List AxisIx) : List Check :=
  axes.map checkValid ++ axes.map checkGroup ++ axes.map (checkLive taken) ++ axes.map checkPoisoned
    ++ [checkFollower a] ++ axes.map checkSample

/-- Checks 1 to 3 discard the setpoint; the others put a HOLD in its place (R36). -/
def RefusalReason.discards : RefusalReason → Bool
  | .invalidAxis => true
  | .noGroup => true
  | .notLive => true
  | .poisoned | .followerAddressed | .noSample | .window | .zone | .skewedReference => false

/-- The outcome of a refusal (R36, R45, R46, R48). -/
def State.refusePosition (a : AxisIx) (axes : List AxisIx) (p : SetpointPayload) (r : RefusalReason) (s : State) :
    State :=
  let s1 := if r.discards then s else axes.foldl State.holdInPlace s
  s1.refuseSetpoint a r p (axes.find? (· != a))

/-! ## Checks 7 to 9 (R41 to R43, R47, R48) -/

/-- An axis of the setpoint with its reference and envelope: the max step of check 7, the soft window of check 8 and the
velocity limit of R44, all from one look at the axis entry (State.mover). -/
structure Mover where
  axis : AxisIx
  reference : Word32
  fields : AxisFields
  deriving DecidableEq, Repr

/-- The mover of an axis, from its entry as held once checks 1 to 6 have passed. DESIGN CHOICE (log 11): checks 7 and 8
and the velocity limit of R44 make no checked read of the axis entry of their own (R138), but use the contents that the
reads of checks 1 and 4 have left, so an entry with a single-bit error at every read is not counted and reported again
for them (R139). -/
def State.mover (s : State) (a : AxisIx) : Option Mover :=
  s.axisRec[a].latest.map fun l => ⟨a, l.position, s.tables.axes[a].held⟩

/-- Ends of the interval from reference minus max step to reference plus max step, exact (R41, R47). -/
def Mover.low (m : Mover) : Int := m.reference.toInt - m.fields.maxStep.toNat
def Mover.high (m : Mover) : Int := m.reference.toInt + m.fields.maxStep.toNat

/-- The ends of the intersection of the movers' intervals (R47). -/
def stepLow : List Mover → Int
  | [] => 0
  | [m] => m.low
  | m :: ms => max m.low (stepLow ms)

def stepHigh : List Mover → Int
  | [] => 0
  | [m] => m.high
  | m :: ms => min m.high (stepHigh ms)

/-- The point of a non-empty interval nearest the request (R41, R47). -/
def nearest (low high request : Int) : Int := if request < low then low else if high < request then high else request

/-- Clamp counts when the target differs from the request (R41, R47). -/
def State.countClamps (ms : List Mover) (target : Int) (request : Word32) (s : State) : State :=
  if target = request.toInt then s
  else ms.foldl (fun s m => s.modAxis m.axis fun r => { r with clampCount := satInc r.clampCount }) s

/-- Check 8 (R42), on the soft window as the mover holds it, without a read of its own (log 11). -/
def Mover.outsideWindow (target : Int) (m : Mover) : Bool := !(inInterval target m.fields.softLow.toInt m.fields.softHigh.toInt)

/-- Check 9 reads the extents of the axis through the check (R81). -/
def State.readExtents (a : AxisIx) (s : State) : State :=
  s.touchAll .admission ((s.extentsOf (· == a)).map .extent)

/-- The test of check 9 (R43), on the extents as they have been read. -/
def State.meetsUnowned (s : State) (target : Int) (m : Mover) : Bool :=
  (List.finRange 128).any fun x =>
    s.liveExtent x && s.extentAxis x == some m.axis
      && travelOverlaps m.reference.toInt target s.tables.extents[x].held.low.toInt s.tables.extents[x].held.high.toInt
      && !(s.zoneOwnedBy s.tables.extents[x].held.zone (s.groupOf m.axis))

/-- Check 8, on the mover. -/
def checkWindow (target : Int) (m : Mover) : Check := pureCheck .window fun _ => m.outsideWindow target

/-- Check 9, which makes its own reads, beside those of check 4 (R43, R81). -/
def checkZone (target : Int) (m : Mover) : Check := fun s =>
  let s1 := s.readExtents m.axis
  (s1, if s1.meetsUnowned target m then some .zone else none)

/-- Checks 8 and 9 for each axis in turn (R48). -/
def lastChecks (target : Int) (ms : List Mover) : List Check :=
  ms.flatMap fun m => [checkWindow target m, checkZone target m]

/-- An accepted setpoint (R44, R48). The velocity limit is the mover's, without a read of its own (log 11). -/
def State.acceptPosition (p : SetpointPayload) (target : Int) (s : State) (m : Mover) : State :=
  (s.enqueue ⟨m.axis, .position, BitVec.ofInt 32 target, capFor p.cap m.fields.velocityLimit, m.reference⟩).modAxis
    m.axis fun r => { r with refusalReported := false }

/-- Checks 7 to 9, once checks 1 to 6 have passed (R41 to R48). -/
def State.judgeTarget (a : AxisIx) (axes : List AxisIx) (p : SetpointPayload) (s : State) : State :=
  let ms := axes.filterMap s.mover
  if stepHigh ms < stepLow ms then s.refusePosition a axes p .skewedReference
  else
    let target := nearest (stepLow ms) (stepHigh ms) p.target.toInt
    let s1 := s.countClamps ms target p.target
    match runChecks (lastChecks target ms) s1 with
    | (s2, some r) => s2.refusePosition a axes p r
    | (s2, none) => ms.foldl (State.acceptPosition p target) s2

/-- The admission unit takes a POSITION setpoint (R36, R46; log 13). -/
def State.admitPosition (a : AxisIx) (p : SetpointPayload) (s : State) : State :=
  let s1 := s.readPair a
  let axes := a :: (s1.unitFollow a).toList
  match runChecks (firstChecks s a axes) s1 with
  | (s2, some r) => s2.refusePosition a axes p r
  | (s2, none) => s2.judgeTarget a axes p

/-! ## The commands -/

/-- The admission unit takes the frame at the head of its path when it has the mode; a frame not in the SETPOINT
form, or addressed to FFh, is discarded and counted as bad (R33; log 7). -/
def State.takeSetpoint (mode : Mode) (work : AxisIx → SetpointPayload → State → State) (s : State) : State :=
  match s.paths.setpoint with
  | [] => s
  | f :: rest =>
    let s1 := { s with paths := { s.paths with setpoint := rest } }
    match f.parse with
    | none => s1.countBad .cl
    | some (a, p) => if p.mode = mode then (work a p s1).settle else s

/-- SETPOINT_POSITION. -/
def execSetpointPosition (s : State) : Result := .next (s.takeSetpoint .position State.admitPosition)

/-- SETPOINT_HOLD. -/
def execSetpointHold (s : State) : Result := .next (s.takeSetpoint .hold State.admitHold)

/-- SETPOINT_BRAKE. -/
def execSetpointBrake (s : State) : Result := .next (s.takeSetpoint .brake State.admitBrake)

end Sys2Proof.Machine
end

