-- ==== Sys2Proof/Machine/Permits.lean ====
section
/-! DEFINITION. Motion permits (chapter 6): keys, PARK, FORCE_TRIP, CLEAR_TRIP, trip requests. -/

namespace Sys2Proof.Machine

/-- State and lapse counter as the request left them, then what failed (R92; log 16). -/
def permitData (s : State) (g : GroupIx) (more : List Byte) : List Byte :=
  (s.permitState g).code :: bytes16 s.permits[g].lapse ++ more

def permitAnswer (g : GroupIx) (status : Status) (more : List Byte) (s : State) : Answer :=
  .of s status (permitData s g more)

/-- A permit that changes other than to TRIPPED, with its report (R108). -/
def State.changePermit (g : GroupIx) (to_ : PermitState) (lapse : Word16) (reason : PermitReason) (s : State) :
    State :=
  let before := s.permitState g
  let s1 := (s.modPermit g fun p => { p with state := to_, lapse := lapse, halfDone := false }).setBrk g (to_ == .live)
  s1.post (.permitChange g before to_ reason lapse)

/-! ## Arming (R94) -/

/-- The entries that belong to g after its own: each member's axis entry and pair entry, then the members' extents
(R94 step 2). -/
def State.belongings (s : State) (g : GroupIx) : List EntryRef :=
  ((s.memberList g).flatMap fun a => .axis a :: ((s.pairOf a).map EntryRef.pair).toList)
    ++ (s.extentsOf fun a => s.groupOf a == some g).map EntryRef.extent

/-- Steps 3 to 7 of R94 and the arming itself. -/
def armChecked (g : GroupIx) (s : State) : Answer :=
  let members := s.memberList g
  match members.find? fun a => !s.axisRec[a].checked with
  | some a => permitAnswer g .unchecked [natByte a] s
  | none =>
  match members.find? fun a => s.axisRec[a].lost with
  | some a => permitAnswer g .notAtRest [natByte a] s
  | none =>
  match s.activeLineFor g with
  | some l => permitAnswer g .inputActive [natByte l] s
  | none =>
  if s.creep[g].state = .running then permitAnswer g .busy [] s
  else if s.tables.groups[g].held.creepRequired && s.creep[g].verdict != .pass then
    permitAnswer g .creepRequired [s.creep[g].verdict.code] s
  else
    permitAnswer g .ok [] (s.changePermit g .primed s.tables.groups[g].held.primeWindow .armed)

/-- K-ARM presented to a DISARMED group (R94). Step 2 reads every entry it lists before it tests them. -/
def arm (g : GroupIx) (s : State) : Answer :=
  let s1 := s.touch .permit (.group g)
  let entry := s1.tables.groups[g]
  if !entry.held.valid && !entry.poisoned then permitAnswer g .badIndex [] s1
  else
    let s2 := s1.touchAll .permit (s1.belongings g)
    match (.group g :: s1.belongings g).find? s2.tables.isPoisoned with
    | some e => permitAnswer g .poisoned (Subject.entry e).bytes s2
    | none => armChecked g s2

/-! ## Keys (R93 to R96) -/

/-- A key out of service order trips the LIVE group in the same event (R96). -/
def keySequence (g : GroupIx) (s : State) : Answer :=
  permitAnswer g .badKey [] (s.trip ⟨g, ⟨.keySequence, .none⟩, none⟩)

def presentArm (g : GroupIx) (s : State) : Answer :=
  match s.permitState g with
  | .tripped => permitAnswer g .tripped [] s
  | .disarmed => arm g s
  | .primed => permitAnswer g .ok [] s
  | .live =>
    if s.permits[g].halfDone then keySequence g s
    else permitAnswer g .ok [] (s.modPermit g fun p => { p with halfDone := true })

/-- K-RUN. The service interval is read from the entry through the check (R95, R96, R138); a read that poisons the entry
trips the group, and the key then meets a TRIPPED group and is refused TRIPPED (log 11). -/
def presentRun (g : GroupIx) (s : State) : Answer :=
  match s.permitState g with
  | .tripped => permitAnswer g .tripped [] s
  | .disarmed => permitAnswer g .badKey [] s
  | .primed =>
    let s1 := s.touch .permit (.group g)
    if s1.permitState g = .primed then
      permitAnswer g .ok [] (s1.changePermit g .live s1.tables.groups[g].held.serviceInterval .run)
    else permitAnswer g .tripped [] s1
  | .live =>
    if s.permits[g].halfDone then
      let s1 := s.touch .permit (.group g)
      if s1.permitState g = .live then
        permitAnswer g .ok []
          (s1.modPermit g fun p => { p with lapse := s1.tables.groups[g].held.serviceInterval, halfDone := false })
      else permitAnswer g .tripped [] s1
    else keySequence g s

def presentOther (g : GroupIx) (s : State) : Answer :=
  match s.permitState g with
  | .tripped => permitAnswer g .tripped [] s
  | .disarmed => permitAnswer g .badKey [] s
  | .primed => permitAnswer g .badKey [] s
  | .live => keySequence g s

/-! ## PARK, FORCE_TRIP, CLEAR_TRIP -/

/-- The latest sample when it is from the current or the previous cycle (R99). -/
def AxisRecord.recent (r : AxisRecord) : Option LatestSample :=
  if r.arrived || r.missCount == 0 then r.latest else none

def AxisRecord.atRest (r : AxisRecord) : Bool := r.recent.any (·.flags.atRest)

/-- At rest with the brake set, and not LOST (R104 step 3). -/
def AxisRecord.braked (r : AxisRecord) : Bool :=
  !r.lost && r.recent.any fun l => l.flags.atRest && l.flags.brakeSet

/-- The members in list order, those of the index when the entry is poisoned (R99, R104). -/
def State.restList (s : State) (g : GroupIx) : List AxisIx := s.memberList g

/-- A request in flight that step 3 of a sample has sent to g (R61 to R65). -/
def fromSampleTo (g : GroupIx) (p : TripSender × TripRequest) : Bool :=
  p.1 == .sampleMonitor && p.2.group == g &&
    match p.2.cause.cause with
    | .driveFault | .overtravel | .overspeed | .zoneIntrusion => true
    | _ => false

/-- The requests of the sample monitor in flight, oldest first, up to its last of step 3 to g, and the requests that stay. -/
def splitSampled (g : GroupIx) : List (TripSender × TripRequest) → List TripRequest × List (TripSender × TripRequest)
  | [] => ([], [])
  | p :: l =>
    let q := splitSampled g l
    if p.1 == .sampleMonitor && (p :: l).any (fromSampleTo g) then (p.2 :: q.1, q.2) else (q.1, p :: q.2)

/-- The permit unit takes the requests that samples before it have sent to a group under a permit, in the order of the
monitor, so a PARK taken behind such a sample meets a TRIPPED group (R61, R67; log 6). -/
def State.takeSampled (g : GroupIx) (s : State) : State :=
  match s.permitState g with
  | .disarmed => s
  | .tripped => s
  | .primed | .live =>
    let q := splitSampled g s.inFlight
    q.1.foldl (fun s r => s.trip r) { s with inFlight := q.2 }

/-- PARK, once the samples before it have had their effect (R99). -/
def parkTaken (g : GroupIx) (s : State) : Answer :=
  match s.permitState g with
  | .disarmed => permitAnswer g .ok [] s
  | .tripped => permitAnswer g .tripped [] s
  | .primed => permitAnswer g .ok [] (s.changePermit g .disarmed 0 .parked)
  | .live =>
    let s1 := s.touch .permit (.group g)
    if s1.permitState g = .tripped then permitAnswer g .tripped [] s1
    else
      match (s1.restList g).find? fun a => !s1.axisRec[a].atRest with
      | some a => permitAnswer g .notAtRest [natByte a] s1
      | none => permitAnswer g .ok [] ((s1.purgeGroup g).changePermit g .disarmed 0 .parked)

/-- PARK (R99, R61). -/
def parkGroup (g : GroupIx) (s : State) : Answer := parkTaken g (s.takeSampled g)

/-- FORCE_TRIP (R103). -/
def forceTripGroup (g : GroupIx) (s : State) : Answer :=
  permitAnswer g .ok [] (s.trip ⟨g, ⟨.forced, .none⟩, none⟩)

/-- The hold CLEAR_TRIP tests: 255 for a poisoned entry, 0 for one not valid (R104). -/
def tripHoldOf (entry : Stored GroupFields) : Nat :=
  if entry.poisoned then 255 else if entry.held.valid then entry.held.tripHold.toNat else 0

/-- Remove members from the stop sets (R115). -/
def State.removeStops (members : List AxisIx) (s : State) : State :=
  s.modEgress fun e => { e with stopSet := e.stopSet.map (·.filter fun a => !members.contains a) }

/-- CLEAR_TRIP accepted (R105, R115). -/
def State.clearAccepted (g : GroupIx) (s : State) : State :=
  let s1 := s.touch .trip (.group g)
  let s2 := s1.modPermit g fun p => { p with cause := none, origin := none, age := 0 }
  let s3 := s2.modCreep g fun r => { r with verdict := .unknown }
  (s3.removeStops (s3.memberList g)).changePermit g .disarmed 0 .cleared

/-- CLEAR_TRIP (R104). -/
def clearTripGroup (g : GroupIx) (s : State) : Answer :=
  match s.permitState g with
  | .disarmed => permitAnswer g .ok [] s
  | .primed => permitAnswer g .badRequest [] s
  | .live => permitAnswer g .badRequest [] s
  | .tripped =>
    let s1 := s.touch .permit (.group g)
    let hold := tripHoldOf s1.tables.groups[g]
    if s1.permits[g].age.toNat < hold then
      permitAnswer g .holdTime (bytes16 s1.permits[g].age ++ [natByte hold]) s1
    else
      match s1.activeLineFor g with
      | some l => permitAnswer g .inputActive [natByte l] s1
      | none =>
        match (s1.restList g).find? fun a => !s1.axisRec[a].braked with
        | some a => permitAnswer g .notAtRest [natByte a] s1
        | none => permitAnswer g .ok [] (s1.clearAccepted g)

/-- The TRIPPED group whose CLEAR_TRIP may be taken now and would be accepted (R104): what an event taken now is in a race
with, since the two may be taken in either order (R105; log 27). -/
def State.clearing (s : State) : Option GroupIx :=
  s.takeable.bind fun q => match q.demand with
    | .clearTrip g => (ixOfByte 8 g).filter fun g =>
      s.permitState g == .tripped && (clearTripGroup g s.popRequest).status == .ok
    | _ => none

/-! ## The commands -/

/-- PERMIT_KEY with K-ARM. -/
def execPermitKeyKArm (s : State) : Result :=
  .next (s.serve fun d => match d with
    | .keyArm g => some fun s => withIndex 8 g s presentArm
    | _ => none)

/-- PERMIT_KEY with K-RUN. -/
def execPermitKeyKRun (s : State) : Result :=
  .next (s.serve fun d => match d with
    | .keyRun g => some fun s => withIndex 8 g s presentRun
    | _ => none)

/-- PERMIT_KEY with a value that is neither key. -/
def execPermitKeyOther (s : State) : Result :=
  .next (s.serve fun d => match d with
    | .keyOther g => some fun s => withIndex 8 g s presentOther
    | _ => none)

/-- PARK. -/
def execPark (s : State) : Result :=
  .next (s.serve fun d => match d with
    | .park g => some fun s => withIndex 8 g s parkGroup
    | _ => none)

/-- FORCE_TRIP. -/
def execForceTrip (s : State) : Result :=
  .next (s.serve fun d => match d with
    | .forceTrip g => some fun s => withIndex 8 g s forceTripGroup
    | _ => none)

/-- CLEAR_TRIP. -/
def execClearTrip (s : State) : Result :=
  .next (s.serve fun d => match d with
    | .clearTrip g => some fun s => withIndex 8 g s clearTripGroup
    | _ => none)

/-- The oldest request in flight from a sender, and the rest. -/
def takeFirstFrom (sender : TripSender) :
    List (TripSender × TripRequest) → Option (TripRequest × List (TripSender × TripRequest))
  | [] => none
  | p :: l =>
    if p.1 = sender then some (p.2, l)
    else (takeFirstFrom sender l).map fun q => (q.1, p :: q.2)

/-- The reply that accepts a SOFT_RESET. -/
def Reply.acceptsReset (r : Reply) : Bool := r.code == 17 && r.status == .ok

/-- The reply of an accepted SOFT_RESET has not been taken for transmission yet. -/
def State.resetReplyWaits (s : State) : Bool := s.cl.replies.any Reply.acceptsReset

/-- The requests of a sender must wait: while a soft reset is being made, so as to meet the reset state (R153; log 6), and
those of its evaluation until its reply has gone out, so that their TRIP reports follow it on CL (R125, R154; log 20). -/
def State.holdsRequests (sender : TripSender) (s : State) : Bool :=
  !s.resets.isEmpty || (sender == .resetEvaluation && s.resetReplyWaits)

/-- TRIP_REQUEST: the permit unit takes the oldest request in flight from the sender (R101; log 6). -/
def execTripRequest (sender : TripSender) (s : State) : Result :=
  .next (if s.holdsRequests sender then s
    else match takeFirstFrom sender s.inFlight with
    | some (r, rest) => ({ s with inFlight := rest }.trip r).settle
    | none => s)

end Sys2Proof.Machine
end

