-- ==== Sys2Proof/Machine/Tables.lean ====
section
/-! DEFINITION. Reading and writing the tables (R7 to R16, R22, R72, R82, R123, R147, R156, R168), and the evaluation
of an input line (R124). The ZONE table is in Zones.lean. -/

namespace Sys2Proof.Machine

/-! ## Reading (R16, R82, R72, R123, R147, R156, R168) -/

def bit (n : Nat) (b : Bool) : Byte := if b then BitVec.twoPow 8 n else 0

/-- Derived part of an axis (R168). -/
def axisDerived (s : State) (a : AxisIx) : List Byte :=
  let r := s.axisRec[a]
  [optIndex (s.groupOf a), optIndex (s.pairOf a),
    bit 0 r.checked ||| bit 1 s.tables.axes[a].poisoned ||| bit 2 r.arrived ||| bit 3 r.lost
      ||| bit 4 r.refusalReported ||| bit 5 r.intrusion ||| bit 6 r.latest.isSome,
    r.missCount.setWidth 8, r.lateCount] ++ bytes16 r.clampCount ++
    match r.latest with
    | some l => bytes16 l.cycle ++ bytes32 l.position ++ bytes16 l.velocity ++ [l.flags.toByte] ++ bytes32 l.stamp
    | none => List.replicate 13 0

/-- Cause with its subject, FFh for none (R168). -/
def causeBytes : Option TripCause → List Byte
  | some c => c.cause.code :: c.subject.bytes
  | none => 0xFF#8 :: Subject.none.bytes

/-- Derived part of a group (R168). -/
def groupDerived (s : State) (g : GroupIx) : List Byte :=
  let p := s.permits[g]
  p.state.code :: bytes16 p.lapse ++ [bit 0 p.halfDone ||| bit 1 s.tables.groups[g].poisoned] ++ causeBytes p.cause
    ++ [optIndex p.origin, p.further] ++ bytes16 p.age ++ [s.creep[g].verdict.code]

/-- Derived part of a pair (R168). -/
def pairDerived (s : State) (p : PairIx) : List Byte :=
  let r := s.pairRec[p]
  [r.skewState.code, bit 0 s.tables.pairs[p].poisoned ||| bit 1 r.lastSkew.isSome] ++
    match r.lastSkew with
    | some k => bytes32 k.1 ++ bytes16 k.2
    | none => List.replicate 6 0

def readAxis (a : AxisIx) (s : State) : Answer :=
  let s1 := s.touch .management (.axis a)
  .ok s1 (s1.tables.axes[a].held.bytes ++ axisDerived s1 a)

def readGroup (g : GroupIx) (s : State) : Answer :=
  let s1 := s.touch .management (.group g)
  .ok s1 (s1.tables.groups[g].held.bytes ++ groupDerived s1 g)

def readPair (p : PairIx) (s : State) : Answer :=
  let s1 := s.touch .management (.pair p)
  .ok s1 (s1.tables.pairs[p].held.bytes ++ pairDerived s1 p)

def readExtent (x : ExtentIx) (s : State) : Answer :=
  let s1 := s.touch .management (.extent x)
  .ok s1 (s1.tables.extents[x].held.bytes ++ [boolByte s1.tables.extents[x].poisoned])

def readWaypoint (a : AxisIx) (s : State) : Answer :=
  .ok s (waypointBytes s.waypoints[a].live ++ waypointBytes s.waypoints[a].staged)

def readInput (l : LineIx) (s : State) : Answer :=
  let r := s.inputs[l]
  .ok s [levelCode r.active, r.groups, levelCode r.held, boolByte r.isActive]

def readSettings (_ : Fin 1) (s : State) : Answer := .ok s s.settings.bytes

def readSchedule (k : Fin 32) (s : State) : Answer :=
  let c := s.cl.schedule
  .ok s [c.shadow[k].code, c.live[k].code, boolByte c.loadPending, natByte c.pointer]

/-! ## Writing an axis entry (R7, R8) -/

/-- The ranges of R1, for an entry written valid. -/
def AxisFields.inRange (f : AxisFields) : Bool :=
  decide (f.segment.toNat < 4) && isStation f.station && decide (f.softLow.toInt < f.softHigh.toInt)
    && f.maxStep != 0 && decide (1 ≤ f.velocityLimit.toNat) && decide (f.velocityLimit.toNat ≤ 32767)
    && decide (1 ≤ f.missLimit.toNat) && decide (f.missLimit.toNat ≤ 7)

/-- What a write stores: the contents, or the default contents for valid set to no (R1, R8). -/
def AxisFields.stored (f : AxisFields) : AxisFields := if f.valid then f else .default

/-- Another valid entry, poisoned or not, holds the segment and station (R7 step 6). -/
def State.stationTaken (s : State) (a : AxisIx) (f : AxisFields) : Bool :=
  (List.finRange 64).any fun b =>
    b != a && s.tables.axes[b].held.valid && s.tables.axes[b].held.segment == f.segment
      && s.tables.axes[b].held.station == f.station

/-- The record after an accepted write: late and clamp counts are kept (R8). -/
def AxisRecord.written (r : AxisRecord) : AxisRecord :=
  { r with
    checked := false, latest := none, arrived := false, missCount := 0, lost := false, intrusion := false,
    refusalReported := false }

/-- Frames mapped to the axis before a write that made it not valid or moved it (R3). -/
def Paths.overtake (a : AxisIx) (p : Paths) : Paths :=
  { p with
    sample := p.sample.map (·.map fun f => if f.axis = a then { f with overtaken := true } else f)
    echo := p.echo.map (·.map fun f => if f.axis = a then { f with overtaken := true } else f) }

/-- The write makes the axis not valid, or changes its segment or station (R3). -/
def AxisFields.moves (old new : AxisFields) : Bool :=
  !new.valid || old.segment != new.segment || old.station != new.station

/-- An accepted axis write (R8, R3). The old segment and station are those of the record as held, which `writeAxis`
has read when the write sets valid to yes (log 11); those of a poisoned entry are taken as held (log 19). -/
def State.storeAxis (a : AxisIx) (f : AxisFields) (s : State) : State :=
  let old := s.tables.axes[a].held
  let s1 := (s.modTables fun t => { t with axes := t.axes.set a (.fresh f.stored) }).modAxis a AxisRecord.written
  let s2 := (s1.abortChecks (· == a) (List.finRange 4)).dropAxisEntries a
  if old.moves f then { s2 with paths := s2.paths.overtake a } else s2

/-- The creep run of an axis's group is RUNNING (R7). -/
def State.groupCreeps (s : State) (g : Option GroupIx) : Bool := g.any fun g => s.creep[g].state == .running

/-- WRITE_ENTRY of an axis, after the index test (R7). The membership index gives the group (R4). The last read is
of the entry's own old segment and station (R3; log 11). -/
def writeAxis (f : AxisFields) (a : AxisIx) (s : State) : Answer :=
  if s.lockedGroup (s.groupOf a) then .refuse s .locked
  else if s.groupCreeps (s.groupOf a) then .refuse s .busy
  else if !f.valid && (s.groupOf a).isSome then .refuse s .referenced
  else if !f.valid then .ok (s.storeAxis a f) []
  else if !f.inRange then .refuse s .badValue
  else
    let s1 := s.touchAll .management (((List.finRange 64).filter (· != a)).map .axis)
    if s1.stationTaken a f then .refuse s1 .conflict
    else .ok ((s1.touch .management (.axis a)).storeAxis a f) []

/-! ## Writing a group entry (R11, R12) -/

/-- The ranges of R9 and the form of the member list, for an entry written valid (R11 step 5). -/
def GroupFields.inRange (f : GroupFields) (g : GroupIx) : Bool :=
  decide (1 ≤ f.members.length) && decide (f.members.length ≤ 16) && decide f.members.Nodup
    && f.members.all (fun b => (axisOfByte b).isSome)
    && decide (2 ≤ f.serviceInterval.toNat) && decide (f.serviceInterval.toNat ≤ 4095)
    && f.primeWindow != 0 && f.tripHold != 0 && f.creepLimit != 0 && !(inGroupSet f.propagation g)

def GroupFields.stored (f : GroupFields) : GroupFields := if f.valid then f else .default

/-- The entry of an axis is valid and not poisoned (R11, R14). -/
def State.usableAxis (s : State) (a : AxisIx) : Bool := s.tables.axes[a].held.valid && !s.tables.axes[a].poisoned

/-- The index after a group write (R12). -/
def rewriteGroup (g : GroupIx) (members : List AxisIx) (a : AxisIx) (m : Membership) : Membership :=
  if members.contains a then { m with group := some g }
  else if m.group = some g then { m with group := none }
  else m

/-- An accepted group write (R12). -/
def State.storeGroup (g : GroupIx) (f : GroupFields) (s : State) : State :=
  let members := f.stored.members.filterMap axisOfByte
  (s.modTables fun t => { t with
    groups := t.groups.set g (.fresh f.stored)
    index := Vector.ofFn fun a => rewriteGroup g members a t.index[a] }).modCreep g fun r => { r with verdict := .unknown }

/-- Steps 6 and 7 of R11, and the write. -/
def writeGroupChecked (f : GroupFields) (g : GroupIx) (s : State) : Answer :=
  let new := f.members.filterMap axisOfByte
  if new.any fun a => (s.groupOf a).any (· != g) then .refuse s .conflict
  else if (s.members g).any fun a => !new.contains a && (s.pairOf a).isSome then .refuse s .referenced
  else .ok (s.storeGroup g f) []

/-- WRITE_ENTRY of a group, after the index test (R11). The current members are those of the index (R4). The members
named are read in written order, once every range has passed (log 11). -/
def writeGroup (f : GroupFields) (g : GroupIx) (s : State) : Answer :=
  if s.permitState g != .disarmed then .refuse s .locked
  else if s.creep[g].state = .running then .refuse s .busy
  else if !f.valid && (s.zones.any (· == some g) || (s.members g).any fun a => (s.pairOf a).isSome) then
    .refuse s .referenced
  else if !f.valid then .ok (s.storeGroup g f) []
  else if !(f.inRange g) then .refuse s .badValue
  else
    let new := f.members.filterMap axisOfByte
    let s1 := s.touchAll .management (new.map .axis)
    if new.any fun a => !(s1.usableAxis a) then .refuse s1 .badValue else writeGroupChecked f g s1

/-! ## Writing a pair entry (R14, R15) -/

def PairFields.stored (f : PairFields) : PairFields := if f.valid then f else .default

/-- The index after a pair write (R15). -/
def rewritePair (p : PairIx) (f : PairFields) (a : AxisIx) (m : Membership) : Membership :=
  if f.valid && (f.lead == natByte a || f.follow == natByte a) then { m with pair := some p }
  else if m.pair = some p then { m with pair := none }
  else m

/-- An accepted pair write (R15). -/
def State.storePair (p : PairIx) (f : PairFields) (s : State) : State :=
  (s.modTables fun t => { t with
    pairs := t.pairs.set p (.fresh f.stored)
    index := Vector.ofFn fun a => rewritePair p f a t.index[a] }).modPair p fun _ => .reset

/-- Steps 3 and 4 of R14 for a write that sets valid to yes; the lead is read before the follow (log 11). -/
def writePairChecked (f : PairFields) (p : PairIx) (lead follow : AxisIx) (s : State) : Answer :=
  let s1 := s.touchAll .management [.axis lead, .axis follow]
  if lead = follow || !(s1.usableAxis lead) || !(s1.usableAxis follow) || (s1.groupOf lead).isNone
      || s1.groupOf lead != s1.groupOf follow || f.alarmLimit == 0
      || decide (f.tripLimit.toNat ≤ f.alarmLimit.toNat) then .refuse s1 .badValue
  else if (s1.pairOf lead).any (· != p) || (s1.pairOf follow).any (· != p) then .refuse s1 .conflict
  else .ok (s1.storePair p f) []

/-- WRITE_ENTRY of a pair, after the index test (R14). The lock test reads the entry through the check (R138); the
membership index gives the group of its axes (R4, R6). Where a named axis is above 63 the other one's entry is not read
(log 11). -/
def writePair (f : PairFields) (p : PairIx) (s : State) : Answer :=
  let s1 := s.touch .management (.pair p)
  if s1.lockedGroup (s1.pairGroup p)
      || (f.valid && (axisOfByte f.lead).any fun a => s1.lockedGroup (s1.groupOf a)) then .refuse s1 .locked
  else if !f.valid then .ok (s1.storePair p f) []
  else match axisOfByte f.lead, axisOfByte f.follow with
    | some lead, some follow => writePairChecked f p lead follow s1
    | _, _ => .refuse s1 .badValue

/-! ## Writing an extent entry (R82) -/

def ExtentFields.stored (f : ExtentFields) : ExtentFields := if f.valid then f else .default

/-- The ranges of R80, for an entry written valid (R82 step 3). -/
def ExtentFields.inRange (f : ExtentFields) : Bool :=
  decide (f.axis.toNat < 64) && decide (f.zone.toNat < 16) && decide (f.low.toInt ≤ f.high.toInt)

/-- The group of the axis a byte names is locked (R6, R82). -/
def State.lockedAxis (s : State) (b : Byte) : Bool := s.lockedGroup ((axisOfByte b).bind s.groupOf)

/-- WRITE_ENTRY of an extent, after the index test (R82). The lock test reads the entry through the check
(R138). -/
def writeExtent (f : ExtentFields) (x : ExtentIx) (s : State) : Answer :=
  let s1 := s.touch .management (.extent x)
  let entry := s1.tables.extents[x]
  if ((entry.held.valid || entry.poisoned) && s1.lockedAxis entry.held.axis) || (f.valid && s1.lockedAxis f.axis) then
    .refuse s1 .locked
  else if f.valid && !f.inRange then .refuse s1 .badValue
  else .ok (s1.modTables fun t => { t with extents := t.extents.set x (.fresh f.stored) }) []

/-! ## Writing a way-point (R72) -/

/-- Where a write goes (R72). -/
def WaypointSlots.load (w : Option Waypoint) (slots : WaypointSlots) : WaypointSlots :=
  match w, slots.live with
  | none, _ => { slots with staged := none }
  | some w, none => ⟨some w, none⟩
  | some w, some _ => { slots with staged := some w }

/-- WRITE_ENTRY of a way-point, after the index test (R72). -/
def writeWaypoint (w : Option (Option Waypoint)) (a : AxisIx) (s : State) : Answer :=
  match w with
  | none => .refuse s .badValue
  | some w => .ok { s with waypoints := upd s.waypoints a (·.load w) } []

/-! ## Input lines (R123, R124) -/

/-- The mapped groups to which a line sends INPUT, ascending: each that is not TRIPPED (R124), and beside them the one
group named, if there is one (R105; log 27). -/
def State.lineTargets (s : State) (l : LineIx) (also : Option GroupIx) : List GroupIx :=
  (groupsOf s.inputs[l].groups).filter fun g => s.permitState g != .tripped || also == some g

/-- The INPUT requests of an active line leave the trip unit (R124). -/
def State.sendInputs (w : TripSender) (l : LineIx) (also : Option GroupIx) (s : State) : State :=
  (s.lineTargets l also).foldl (fun s g => s.send w ⟨g, ⟨.input, .line l⟩, none⟩) s

/-- Evaluate a line: when active, an INPUT request to each mapped group not TRIPPED, ascending, and none to a group already
TRIPPED (R124). -/
def State.evaluateLine (w : TripSender) (l : LineIx) (s : State) : State :=
  if s.inputs[l].isActive then s.sendInputs w l none else s

/-- Evaluate a line that becomes active in a race with the CLEAR_TRIP of a group (State.clearing), if there is such a race.
Every mapped group not TRIPPED gets its request, and no group already TRIPPED gets one (R124), but for the group of the race:
of it R105, "Line first", says that the request reaches it as a further cause, and R124, "Line event first", that it gets none,
so whether it gets one is free (DESIGN CHOICE, log 27). -/
def State.evaluateLineAgainst (race : Option GroupIx) (l : LineIx) (s : State) : State :=
  match race with
  | none => s.evaluateLine .tripUnit l
  | some g =>
    if s.inputs[l].isActive then
      { s with freeCount := s.freeCount + 1 }.sendInputs .tripUnit l
        (if Config.freeRequest s.freeCount then some g else none)
    else s

/-- WRITE_ENTRY of an input map entry, after the index test (R123). Requests are taken one at a time in arrival
order (R92), so the write is in no race with a CLEAR_TRIP. -/
def writeInput (level groups : Byte) (l : LineIx) (s : State) : Answer :=
  match levelOfByte level with
  | none => .refuse s .badValue
  | some active =>
    .ok ({ s with inputs := upd s.inputs l fun r => { r with active := active, groups := groups } }.evaluateLine .tripUnit l) []

/-! ## Writing the settings record (R22, R147) -/

/-- The ranges of R147. -/
def Settings.inRange (f : Settings) : Bool :=
  decide (500 ≤ f.cyclePeriod.toNat) && decide (f.cyclePeriod.toNat ≤ 20000) && f.clSilence != 0 && f.segSilence != 0
    && decide (f.scrubRate.toNat ≤ 8)

/-- The lowest valid group that is not DISARMED (R22, R153). -/
def State.validNotDisarmed (s : State) : Option GroupIx :=
  (List.finRange 8).find? fun g => s.tables.groups[g].held.valid && s.permitState g != .disarmed

/-- Read the eight group entries (R22, R153; log 11). -/
def State.readGroups (b : ReadingBlock) (s : State) : State := s.touchAll b ((List.finRange 8).map .group)

/-- WRITE_ENTRY of the settings record, after the index test (R22). -/
def writeSettings (f : Settings) (_ : Fin 1) (s : State) : Answer :=
  if !f.inRange then .refuse s .badValue
  else if f.cyclePeriod = s.settings.cyclePeriod then .ok { s with settings := f } []
  else
    let s1 := s.readGroups .management
    if s1.validNotDisarmed.isSome then .refuse s1 .notDisarmed else .ok { s1 with settings := f } []

/-! ## Writing the shadow table (R156) -/

/-- WRITE_ENTRY of a phase of the shadow table, after the index test (R156). -/
def writeSchedule (source : Byte) (k : Fin 32) (s : State) : Answer :=
  if s.cl.schedule.loadPending then .refuse s .busy
  else match Source.ofByte source with
    | none => .refuse s .badValue
    | some src =>
      .ok { s with cl := { s.cl with schedule := { s.cl.schedule with shadow := s.cl.schedule.shadow.set k src } } } []

/-! ## The commands: READ_ENTRY -/

/-- READ_ENTRY naming the AXIS table. -/
def execReadEntryAxis (s : State) : Result :=
  .next (s.serve fun d => match d with
    | .readAxis i => some fun s => withIndex 64 i s readAxis
    | _ => none)

/-- READ_ENTRY naming the GROUP table. -/
def execReadEntryGroup (s : State) : Result :=
  .next (s.serve fun d => match d with
    | .readGroup i => some fun s => withIndex 8 i s readGroup
    | _ => none)

/-- READ_ENTRY naming the PAIR table. -/
def execReadEntryPair (s : State) : Result :=
  .next (s.serve fun d => match d with
    | .readPair i => some fun s => withIndex 32 i s readPair
    | _ => none)

/-- READ_ENTRY naming the EXTENT table. -/
def execReadEntryExtent (s : State) : Result :=
  .next (s.serve fun d => match d with
    | .readExtent i => some fun s => withIndex 128 i s readExtent
    | _ => none)

/-- READ_ENTRY naming the WAYPOINT table. -/
def execReadEntryWaypoint (s : State) : Result :=
  .next (s.serve fun d => match d with
    | .readWaypoint i => some fun s => withIndex 64 i s readWaypoint
    | _ => none)

/-- READ_ENTRY naming the INPUT table. -/
def execReadEntryInput (s : State) : Result :=
  .next (s.serve fun d => match d with
    | .readInput i => some fun s => withIndex 8 i s readInput
    | _ => none)

/-- READ_ENTRY naming the SETTINGS table. -/
def execReadEntrySettings (s : State) : Result :=
  .next (s.serve fun d => match d with
    | .readSettings i => some fun s => withIndex 1 i s readSettings
    | _ => none)

/-- READ_ENTRY naming the SCHEDULE table. -/
def execReadEntrySchedule (s : State) : Result :=
  .next (s.serve fun d => match d with
    | .readSchedule i => some fun s => withIndex 32 i s readSchedule
    | _ => none)

/-! ## The commands: WRITE_ENTRY -/

/-- WRITE_ENTRY naming the AXIS table. -/
def execWriteEntryAxis (s : State) : Result :=
  .next (s.serve fun d => match d with
    | .writeAxis i f => some fun s => withIndex 64 i s (writeAxis f)
    | _ => none)

/-- WRITE_ENTRY naming the GROUP table. -/
def execWriteEntryGroup (s : State) : Result :=
  .next (s.serve fun d => match d with
    | .writeGroup i f => some fun s => withIndex 8 i s (writeGroup f)
    | _ => none)

/-- WRITE_ENTRY naming the PAIR table. -/
def execWriteEntryPair (s : State) : Result :=
  .next (s.serve fun d => match d with
    | .writePair i f => some fun s => withIndex 32 i s (writePair f)
    | _ => none)

/-- WRITE_ENTRY naming the EXTENT table. -/
def execWriteEntryExtent (s : State) : Result :=
  .next (s.serve fun d => match d with
    | .writeExtent i f => some fun s => withIndex 128 i s (writeExtent f)
    | _ => none)

/-- WRITE_ENTRY naming the WAYPOINT table. -/
def execWriteEntryWaypoint (s : State) : Result :=
  .next (s.serve fun d => match d with
    | .writeWaypoint i w => some fun s => withIndex 64 i s (writeWaypoint w)
    | _ => none)

/-- WRITE_ENTRY naming the INPUT table. -/
def execWriteEntryInput (s : State) : Result :=
  .next (s.serve fun d => match d with
    | .writeInput i level groups => some fun s => withIndex 8 i s (writeInput level groups)
    | _ => none)

/-- WRITE_ENTRY naming the SETTINGS table. -/
def execWriteEntrySettings (s : State) : Result :=
  .next (s.serve fun d => match d with
    | .writeSettings i f => some fun s => withIndex 1 i s (writeSettings f)
    | _ => none)

/-- WRITE_ENTRY naming the SCHEDULE table. -/
def execWriteEntrySchedule (s : State) : Result :=
  .next (s.serve fun d => match d with
    | .writeSchedule i source => some fun s => withIndex 32 i s (writeSchedule source)
    | _ => none)

end Sys2Proof.Machine
end

