-- ==== Sys2Proof/Machine/Management.lean ====
section
/-! DEFINITION. The management unit's own requests, the trip ring, the schedule load, input levels and the two
resets (R17, R119, R122, R125, R148, R149, R153, R154, R157). -/

namespace Sys2Proof.Machine

/-! ## Input lines (R122) -/

/-- The trip unit takes a change of a line's level (R122). A level equal to the held level is no change (log 1). A line
that is active after a change has become active by it, and may be in a race with a CLEAR_TRIP (R105, R124; log 27). -/
def State.changeLevel (l : LineIx) (level : Level) (s : State) : State :=
  if s.inputs[l].held = level then s
  else
    let s1 := { s with inputs := upd s.inputs l fun r => { r with held := level } }
    (s1.post (.inputChange l level s1.inputs[l].isActive s1.inputs[l].groups)).evaluateLineAgainst s.clearing l

/-- INPUT_LEVEL_CHANGE (R122). -/
def execInputLevelChange (l : LineIx) (level : Level) (s : State) : Result := .next (s.changeLevel l level)

/-! ## LOAD_SCHEDULE (R157, R158) -/

/-- The first source that no phase of the table names (R157). -/
def missingSource (t : Vector Source 32) : Option Source := Source.all.find? fun src => !(t.toList.contains src)

/-- The load-pending flag is set (R157). -/
def ClSide.setPending (c : ClSide) : ClSide := { c with schedule := { c.schedule with loadPending := true } }

/-- LOAD_SCHEDULE (R157). Result data: LOADED 0, PENDING 1 (log 16). -/
def loadSchedule (s : State) : Answer :=
  if s.cl.schedule.loadPending then .refuse s .busy
  else match missingSource s.cl.schedule.shadow with
    | some src => .refuse s .badSchedule [src.code]
    | none =>
      let s1 := { s with cl := s.cl.setPending }
      if s.cl.tx.isNone && !s.cl.anyWaiting then .ok (s1.onCl ClSide.loadIdle) [0] else .ok s1 [1]

/-! ## The trip record ring (R119) -/

def State.moveReadPtr (k : Fin 8) (s : State) : State := { s with ring := { s.ring with readPtr := k } }

/-- READ_TRIP_RECORD (R119, R168). -/
def readTripRecord (s : State) : Answer :=
  let slot := s.ring.readPtr
  let s1 := s.moveReadPtr (slot + 1)
  match s.ring.slots[slot] with
  | some r => ⟨s1, .ok, r.parts slot⟩
  | none => ⟨s1, .empty, numberParts [[natByte slot]]⟩

/-- The oldest written slot: the one at the write pointer once all are written, and slot 0 before (R119). -/
def Ring.oldest (r : Ring) : Fin 8 := if r.slots.all (·.isSome) then r.writePtr else 0

/-- REWIND_TRIP_RECORDS (R119). -/
def rewindTripRecords (s : State) : Answer :=
  .ok (s.moveReadPtr s.ring.oldest) [natByte s.ring.oldest]

/-! ## READ_STATUS (R148, R168) -/

/-- Page 0: part and revision code, capacities. -/
def statusPage0 : List Byte := [0x64#8, 0x01#8, 64, 8, 32, 16, 128, 8, 8, 32, 32, 32, 8, 8, 32]

def Port.statusBytes (p : Port) : List Byte := [p.link.code, p.silence] ++ bytes16 p.bad

/-- Page 1: the ports. -/
def statusPage1 (s : State) : List Byte :=
  s.clPort.port.statusBytes ++ bytes16 s.clPort.dropped
    ++ s.segPorts.toList.flatMap fun p => p.port.statusBytes ++ bytes16 p.unmapped

/-- Last error: its index, FFh for none, then its kind, which is absent for none (R144, R166; log 16). -/
def LastError.bytes : LastError → List Byte
  | .none => 0xFF#8 :: present 1 Option.none
  | .corrected i => natByte i :: present 1 (some [0])
  | .uncorrectable i => natByte i :: present 1 (some [1])

/-- Error status with the poisoned entries counted (R144). That the count is one byte is the model's choice (R148, R166;
log 16). -/
def ErrorStatus.bytes (e : ErrorStatus) (poisoned : Nat) : List Byte :=
  [e.corrected, boolByte e.uncorrectable] ++ e.last.bytes ++ [natByte poisoned]

/-- How many entries are poisoned, counted when read (R144). -/
def poisonedCount {F : Type} {n : Nat} (v : Vector (Stored F) n) : Nat := v.toList.countP (·.poisoned)

/-- Page 2: the error status of the four tables, scrub position and rate (R148). That the scrub position is one byte is
the model's choice (log 16). -/
def statusPage2 (s : State) : List Byte :=
  let t := s.tables
  t.axisErrors.bytes (poisonedCount t.axes) ++ t.groupErrors.bytes (poisonedCount t.groups)
    ++ t.pairErrors.bytes (poisonedCount t.pairs) ++ t.extentErrors.bytes (poisonedCount t.extents)
    ++ [natByte t.scrubPos, s.settings.scrubRate]

/-- Page 3: occupancies, overrun total, trip ring (R148). That an occupancy and a ring pointer are one byte each is the
model's choice (log 16). -/
def statusPage3 (s : State) : List Byte :=
  (s.egress.setpoints.toList.map fun q => natByte q.length) ++ (s.cl.forward.toList.map fun q => natByte q.length)
    ++ (s.egress.stopSet.toList.map fun q => natByte q.length)
    ++ [natByte s.requests.length, natByte s.cl.replies.length, natByte s.cl.reports.length]
    ++ bytes16 s.cl.overrunTotal ++ [natByte s.ring.writePtr, natByte s.ring.readPtr] ++ bytes16 s.ring.number

/-- Page 4: cycle number, timebase, running period (R32). -/
def statusPage4 (s : State) : List Byte := bytes16 s.timer.cycle ++ bytes32 s.timer.timebase ++ bytes16 s.timer.period

def statusPage (s : State) (k : Fin 5) : List Byte :=
  if k = 0 then statusPage0 else if k = 1 then statusPage1 s else if k = 2 then statusPage2 s
  else if k = 3 then statusPage3 s else statusPage4 s

def readStatus (k : Fin 5) (s : State) : Answer := .ok s (statusPage s k)

/-! ## CLEAR_COUNTERS (R149) -/

def Port.clearBad (p : Port) : Port := { p with bad := 0 }

/-- Error status cleared; the poisoned marks stay (R144). -/
def TableStore.clearErrors (t : TableStore) : TableStore :=
  { t with axisErrors := .clean, groupErrors := .clean, pairErrors := .clean, extentErrors := .clean }

/-- The port counters at 0; link state, silence count and frame seen are kept (R149, R162). -/
def State.clearPorts (s : State) : State :=
  { s with
    segPorts := s.segPorts.map fun p => ⟨p.port.clearBad, 0⟩
    clPort := ⟨s.clPort.port.clearBad, 0⟩ }

/-- The further-cause count is kept while TRIPPED (R149). -/
def Permit.clearFurther (p : Permit) : Permit := if p.state = .tripped then p else { p with further := 0 }

def State.clearCounters (s : State) : State :=
  { s.clearPorts with
    axisRec := s.axisRec.map fun r => { r with lateCount := 0, clampCount := 0 }
    tables := s.tables.clearErrors
    permits := s.permits.map Permit.clearFurther
    cl := { s.cl with overrunTotal := 0 } }

/-! ## SOFT_RESET (R153, R154) -/

/-- Every active line is evaluated, in a free order (R125; log 5). -/
def State.evaluateLines (s : State) : State :=
  let order := s.inFreeOrder ((List.finRange 8).filter fun l => s.inputs[l].isActive)
  order.1.foldl (fun s l => s.evaluateLine .resetEvaluation l) order.2

/-- Table store (R17, R143, R144): the poisoned marks stay. -/
def State.resetTables (s : State) : State := s.modTables fun t => { t.clearErrors with scrubPos := 0 }

/-- Cycle timer (R24). -/
def State.resetTimer (s : State) : State :=
  { s with
    timer := { s.timer with cycle := 0, phase := 0 }
    egress := { s.egress with beacon := Vector.replicate 4 true } }

/-- An axis record after the sample monitor's soft reset (R17, R78). The checked flag is the check unit's to clear and
the last two fields the admission unit's (R154; log 20). -/
def AxisRecord.monitorReset (r : AxisRecord) : AxisRecord :=
  { AxisRecord.reset with checked := r.checked, clampCount := r.clampCount, refusalReported := r.refusalReported }

/-- Sample monitor (R17, R78). -/
def State.resetMonitor (s : State) : State :=
  { s with
    axisRec := s.axisRec.map AxisRecord.monitorReset
    pairRec := Vector.replicate 32 .reset
    waypoints := Vector.replicate 64 ⟨none, none⟩
    cl := { s.cl with forward := Vector.replicate 4 [] } }

/-- Admission unit (R56). -/
def State.resetAdmission (s : State) : State :=
  { s with
    axisRec := s.axisRec.map fun r => { r with clampCount := 0, refusalReported := false }
    egress := { s.egress with setpoints := Vector.replicate 4 [] } }

/-- Permit unit (R109, R106). -/
def State.resetPermits (s : State) : State :=
  { s with permits := Vector.replicate 8 .reset, brk := Vector.replicate 8 false }

/-- Zone arbiter (R91). -/
def State.resetZones (s : State) : State := { s with zones := Vector.replicate 16 none }

/-- Trip unit (R125): the stop sets, then the active lines. -/
def State.resetTrips (s : State) : State :=
  (s.modEgress fun e => { e with stopSet := Vector.replicate 4 [] }).evaluateLines

/-- Check unit (R137): each link-check record is IDLE with its phase. The checked flags are cleared (R17). That the record's
timeout count, stale count, axis, expected word and sent mark are those of pin reset is the model's choice (log 1). -/
def State.resetChecks (s : State) : State :=
  { s with
    axisRec := s.axisRec.map fun r => { r with checked := false }
    checks := s.checks.map fun r => { LinkCheck.reset with phase := r.phase }
    egress := { s.egress with checkSlot := Vector.replicate 4 none }
    creep := Vector.replicate 8 .reset }

/-- A port's counters (R162). -/
def State.resetPort (p : PortId) (s : State) : State :=
  match p with
  | .seg n => s.modSegPort n fun q => ⟨q.port.clearBad, 0⟩
  | .cl => s.modClPort fun q => ⟨q.port.clearBad, 0⟩

/-- Management unit (R150, R152, R154). -/
def State.resetManagement (s : State) : State := { s with cl := { s.cl with reports := [], overrunTotal := 0 } }

/-- Control-link scheduler (R159). -/
def State.resetScheduler (s : State) : State :=
  { s with cl := { s.cl with schedule := { s.cl.schedule with loadPending := false, pointer := 0 } } }

/-- One block's soft reset (R154). -/
def State.resetBlock (b : ResetBlock) (s : State) : State :=
  match b with
  | .tables => s.resetTables
  | .timer => s.resetTimer
  | .monitor => s.resetMonitor
  | .admission => s.resetAdmission
  | .permit => s.resetPermits
  | .zone => s.resetZones
  | .trip => s.resetTrips
  | .check => s.resetChecks
  | .port p => s.resetPort p
  | .management => s.resetManagement
  | .scheduler => s.resetScheduler

/-- The blocks, in the order of the table of R154. -/
def ResetBlock.all : List ResetBlock :=
  [.tables, .timer, .monitor, .admission, .permit, .zone, .trip, .check, .port .cl, .port (.seg 0), .port (.seg 1),
    .port (.seg 2), .port (.seg 3), .management, .scheduler]

/-- The blocks whose soft reset comes before this one's: the timer's before the monitor's, the monitor's before the
admission unit's (R154), and every other before the trip unit's, which evaluates the lines last (R125). -/
def ResetBlock.waitsFor : ResetBlock → List ResetBlock
  | .monitor => [.timer]
  | .admission => [.monitor]
  | .trip => ResetBlock.all.filter (· != .trip)
  | .tables | .timer | .permit | .zone | .check | .port _ | .management | .scheduler => []

/-- The blocks that may take the soft reset next. -/
def State.readyResets (s : State) : List ResetBlock :=
  s.resets.filter fun b => b.waitsFor.all fun c => !s.resets.contains c

/-- The block has taken it. -/
def State.doneReset (b : ResetBlock) (s : State) : State := { s with resets := s.resets.erase b }

/-- One of them takes it, freely which (R154; log 20). -/
def State.resetNext (s : State) : State :=
  match s.pick s.readyResets with
  | (some b, s1) => (s1.resetBlock b).doneReset b |>.settle
  | (none, s1) => s1

def State.resetFor : Nat → State → State
  | 0, s => s
  | n + 1, s => State.resetFor n s.resetNext

/-- Every block that has yet to take the soft reset takes it. -/
def State.finishResets (s : State) : State := State.resetFor s.resets.length s

/-- The request queue is emptied, and every block is to take the soft reset (R154). -/
def State.beginReset (s : State) : State := { s with requests := [], resets := ResetBlock.all }

/-- SOFT_RESET taken from the queue: the permit unit's test, then the OK reply, then the resets behind it
(R153, R154). -/
def State.takeSoftReset (q : Request) (s : State) : State :=
  let s1 := s.popRequest.readGroups .permit
  match s1.validNotDisarmed with
  | some g => ((Answer.refuse s1 .notDisarmed [natByte g]).reply q).settle
  | none => ((Answer.ok s1 []).reply q).beginReset.settle

/-! ## PIN_RESET (R17, R20, R24, R56, R78, R91, R109, R125, R137, R146, R150, R159, R160) -/

/-- Every piece of state at its pin-reset value, the lines' levels as the pins stand (R125). The queue of commands
and the counter of free values are the model's own (log 21). -/
def State.pinReset (pins : Vector Level 8) (s : State) : State :=
  { State.reset with
    inputs := pins.map fun level => ⟨level, .high, 0⟩
    freeCount := s.freeCount
    pending := s.pending }

/-! ## The commands -/

/-- PIN_RESET. -/
def execPinReset (pins : Vector Level 8) (s : State) : Result := .next (s.pinReset pins)

/-- LOAD_SCHEDULE. -/
def execLoadSchedule (s : State) : Result :=
  .next (s.serve fun d => match d with
    | .loadSchedule => some loadSchedule
    | _ => none)

/-- READ_TRIP_RECORD. -/
def execReadTripRecord (s : State) : Result :=
  .next (s.serve fun d => match d with
    | .readTripRecord => some readTripRecord
    | _ => none)

/-- REWIND_TRIP_RECORDS. -/
def execRewindTripRecords (s : State) : Result :=
  .next (s.serve fun d => match d with
    | .rewindTripRecords => some rewindTripRecords
    | _ => none)

/-- READ_STATUS. -/
def execReadStatus (s : State) : Result :=
  .next (s.serve fun d => match d with
    | .readStatus page => some fun s => withIndex 5 page s readStatus
    | _ => none)

/-- CLEAR_COUNTERS. -/
def execClearCounters (s : State) : Result :=
  .next (s.serve fun d => match d with
    | .clearCounters => some fun s => .ok s.clearCounters []
    | _ => none)

/-- SOFT_RESET: the request is taken; while blocks have yet to take the soft reset, one of them takes it
(R154; log 20). -/
def execSoftReset (s : State) : Result :=
  .next (match s.resets with
    | _ :: _ => s.resetNext
    | [] =>
      match s.takeable with
      | none => s
      | some q => if q.demand = .softReset then s.takeSoftReset q else s)

end Sys2Proof.Machine
end

