-- ==== Sys2Proof/Machine/Checks.lean ====
section
/-! DEFINITION. Link checks and creep runs (chapter 8). -/

namespace Sys2Proof.Machine

/-! ## Starting a link check (R127) -/

/-- The phase a new check takes (R126). -/
def CheckPhase.opposite : CheckPhase → CheckPhase
  | .word => .complement
  | .complement => .word

/-- The word the ECHO must carry (R126). -/
def CheckPhase.expects (word : Word16) : CheckPhase → Word16
  | .word => word
  | .complement => ~~~word

/-- The record of a check just started (R127). -/
def LinkCheck.begin_ (a : AxisIx) (word : Word16) (r : LinkCheck) : LinkCheck :=
  ⟨true, a, r.phase.opposite, r.phase.opposite.expects word, false, 0, 0⟩

/-- The check is started (R127). -/
def State.startCheck (sg : SegIx) (a : AxisIx) (s : State) : State :=
  let r := (s.checks[sg]).begin_ a s.settings.checkWord
  ((s.modCheck sg fun _ => r).modAxis a fun x => { x with checked := false }).modEgress fun e =>
    { e with checkSlot := e.checkSlot.set sg (some ⟨a, r.expected⟩) }

/-- The axis under check on the segment a held byte names (R127 step 3). -/
def State.underCheck (s : State) (segment : Byte) : Option AxisIx :=
  match segOfByte segment with
  | some sg => if s.checks[sg].inFlight then some s.checks[sg].axis else none
  | none => none

/-- LINK_CHECK after the index test (R127). The entry is read through the check before step 3 takes its segment
(log 11). -/
def linkCheck (a : AxisIx) (s : State) : Answer :=
  if s.lockedGroup (s.groupOf a) then .refuse s .notDisarmed
  else
    let s1 := s.touch .check (.axis a)
    let entry := s1.tables.axes[a]
    match s1.underCheck entry.held.segment with
    | some b => .refuse s1 .busy [natByte b]
    | none =>
      if !entry.held.valid && !entry.poisoned then .refuse s1 .badIndex
      else if entry.poisoned then .refuse s1 .poisoned
      else match segOfByte entry.held.segment with
        | some sg =>
          let s2 := s1.startCheck sg a
          .ok s2 [s2.checks[sg].phase.code]
        | none => .refuse s1 .poisoned

/-! ## Judging an ECHO (R129) -/

/-- How an ECHO is judged against the check in flight (R129). -/
inductive Judgement where
  | stale
  | ends (outcome : CheckOutcome)
  deriving DecidableEq, Repr

/-- The mounting an axis of the polarity reports (R129). -/
def Mounting.matches_ (m : Mounting) (mirrored : Bool) : Bool :=
  match m with
  | .forward => !mirrored
  | .reversed => mirrored

/-- The rows of R129 after "no check", from the top. -/
def judge (expected word : Word16) (m : Mounting) (mirrored : Bool) : Judgement :=
  if word = ~~~expected then .stale
  else if word = expected then
    if m.matches_ mirrored then .ends .pass else .ends .polarity
  else .ends .corrupt

/-- The ECHO answers the check in flight on its segment (R129, the row "no check"). -/
def LinkCheck.answers (r : LinkCheck) (a : AxisIx) : Bool := r.inFlight && r.sent && r.axis == a

/-- The judgement takes effect (R129, R131). -/
def State.judged (sg : SegIx) (f : EchoFrame) (j : Judgement) (s : State) : State :=
  match j with
  | .stale => s.modCheck sg fun r => { r with stale := satInc r.stale }
  | .ends .pass => (s.modAxis f.axis fun x => { x with checked := true }).endCheck sg .pass (some (f.word, f.mounting))
  | .ends o => s.endCheck sg o (some (f.word, f.mounting))

/-- The check unit takes an ECHO (R129). The polarity is read as the ECHO is taken; a read that poisons the entry
ends the check, and the ECHO is then not judged. DESIGN CHOICE (log 11): an ECHO of the row "no check", on a record IDLE,
of another axis or not sent, makes no read; one that answers the check makes the read before its word is looked at, so
also where it is then STALE or CORRUPT. -/
def State.takeEcho (sg : SegIx) (f : EchoFrame) (s : State) : State :=
  if f.overtaken || !(s.checks[sg].answers f.axis) then s
  else
    let s1 := s.touch .check (.axis f.axis)
    if s1.checks[sg].answers f.axis then
      s1.judged sg f (judge s1.checks[sg].expected f.word f.mounting s1.tables.axes[f.axis].held.mirrored)
    else s1

/-! ## Creep runs (R132 to R136) -/

/-- CREEP_START after the index test (R132). -/
def creepStart (duration : Word16) (g : GroupIx) (s : State) : Answer :=
  let s1 := s.touch .check (.group g)
  let entry := s1.tables.groups[g]
  if !entry.held.valid && !entry.poisoned then .refuse s1 .badIndex
  else if s1.permitState g != .disarmed then .refuse s1 .notDisarmed
  else if s1.creep[g].state = .running then .refuse s1 .busy
  else if entry.poisoned then .refuse s1 .poisoned
  else match (s1.memberList g).find? fun a => s1.axisRec[a].lost with
    | some a => .refuse s1 .notAtRest [natByte a]
    | none => .ok (s1.modCreep g fun _ => ⟨.running, duration, 0, 0, .unknown⟩) []

/-- A run ends DONE (R133, R134). -/
def State.finishCreep (g : GroupIx) (s : State) : State := s.endCreep State.trip g .done creepVerdict none

/-- CREEP_STOP after the index test (R134). -/
def creepStop (g : GroupIx) (s : State) : Answer :=
  if s.creep[g].state ≠ .running then .refuse s .busy
  else if s.creep[g].duration ≠ 0 then .refuse s .badRequest
  else
    let s1 := s.finishCreep g
    .ok s1 (bytes16 s1.creep[g].accumulator ++ [s1.creep[g].verdict.code])

/-- CREEP_RESULT after the index test (R136). -/
def creepResult (g : GroupIx) (s : State) : Answer :=
  let r := s.creep[g]
  .ok s (r.state.code :: bytes16 r.duration ++ bytes16 r.elapsed ++ bytes16 r.accumulator ++ [r.verdict.code])

/-- The check unit takes an increment (R133, R75). -/
def State.addIncrement (g : GroupIx) (n : Nat) (s : State) : State :=
  if s.creep[g].state = .running then
    let sum := s.creep[g].accumulator.toNat + n
    if sum < 65535 then s.modCreep g fun r => { r with accumulator := BitVec.ofNat 16 sum }
    else (s.modCreep g fun r => { r with accumulator := BitVec.allOnes 16 }).endCreep State.trip g .saturated
      (fun _ _ => .fail) none
  else s

/-! ## Counts reached (R128, R133) -/

/-- A sent check whose timeout count has reached 4 (R128). -/
def LinkCheck.timedOut (r : LinkCheck) : Bool := r.inFlight && r.sent && r.timeout == 4

/-- A RUNNING run whose elapsed count has reached its duration (R133). -/
def CreepRun.complete (r : CreepRun) : Bool := r.state == .running && r.duration != 0 && r.elapsed == r.duration

/-! ## The commands -/

/-- ECHO: the check unit takes the frame at the head of the segment's path (R129, R162). -/
def execEcho (sg : SegIx) (s : State) : Result :=
  .next (match s.paths.echo[sg] with
    | f :: rest => ({ s with paths := { s.paths with echo := s.paths.echo.set sg rest } }.takeEcho sg f).settle
    | [] => s)

/-- NO_ECHO: the check whose timeout count has reached 4 ends (R128; log 4). -/
def execNoEcho (sg : SegIx) (s : State) : Result :=
  .next (if s.checks[sg].timedOut then s.endCheck sg .noEcho none else s)

/-- CREEP_RUN_END: the run whose elapsed count has reached its duration ends (R133; log 4). -/
def execCreepRunEnd (g : GroupIx) (s : State) : Result :=
  .next (if s.creep[g].complete then (s.finishCreep g).settle else s)

/-- LINK_CHECK. -/
def execLinkCheck (s : State) : Result :=
  .next (s.serve fun d => match d with
    | .linkCheck a => some fun s => withIndex 64 a s linkCheck
    | _ => none)

/-- CREEP_START. -/
def execCreepStart (s : State) : Result :=
  .next (s.serve fun d => match d with
    | .creepStart g duration => some fun s => withIndex 8 g s (creepStart duration)
    | _ => none)

/-- CREEP_STOP. -/
def execCreepStop (s : State) : Result :=
  .next (s.serve fun d => match d with
    | .creepStop g => some fun s => withIndex 8 g s creepStop
    | _ => none)

/-- CREEP_RESULT. -/
def execCreepResult (s : State) : Result :=
  .next (s.serve fun d => match d with
    | .creepResult g => some fun s => withIndex 8 g s creepResult
    | _ => none)

end Sys2Proof.Machine
end

