-- ==== Sys2Proof/Machine/Zones.lean ====
section
/-! DEFINITION. Zone claims (chapter 5): occupancy, claims, releases and the purge of a release. -/

namespace Sys2Proof.Machine

/-! ## Occupancy (R83) -/

/-- The extent is live, names the axis and lies in the zone (R81, R83). -/
def State.extentOfZone (s : State) (z : ZoneIx) (a : AxisIx) (x : ExtentIx) : Bool :=
  s.liveExtent x && s.extentAxis x == some a && ixOfByte 16 s.tables.extents[x].held.zone == some z

/-- An axis found inside a zone: its latest position, and the lowest live extent that holds it. -/
structure Occupant where
  axis : AxisIx
  position : Word32
  extent : ExtentIx
  deriving DecidableEq, Repr

/-- The axis inside the zone, by its latest position; one with no latest sample is in none (R83). -/
def State.insideZone (s : State) (z : ZoneIx) (a : AxisIx) : Option Occupant :=
  s.axisRec[a].latest.bind fun l =>
    ((List.finRange 128).find? fun x => s.extentOfZone z a x && s.tables.extents[x].held.holds l.position).map
      fun x => ⟨a, l.position, x⟩

/-- The lowest-numbered member of g inside z, with the extents as they stand (R83). -/
def State.occupant (s : State) (z : ZoneIx) (g : GroupIx) : Option Occupant :=
  (s.members g).findSome? fun a => s.insideZone z a

/-- The zone arbiter's checked reads of the extents that name a member of g, ascending (R81; log 11). -/
def State.readMemberExtents (b : ReadingBlock) (g : GroupIx) (s : State) : State :=
  s.touchAll b ((s.extentsOf fun a => s.groupOf a == some g).map .extent)

/-! ## Releases (R85, R86) -/

/-- A queued entry is waiting POSITION travel of g that overlaps a live extent of z for its axis (R50). -/
def State.travelsInto (s : State) (z : ZoneIx) (g : GroupIx) (q : SetpointEntry) : Bool :=
  q.mode == .position && s.groupOf q.axis == some g &&
    (List.finRange 128).any fun x =>
      s.extentOfZone z q.axis x &&
        travelOverlaps q.reference.toInt q.target.toInt s.tables.extents[x].held.low.toInt
          s.tables.extents[x].held.high.toInt

/-- "Purge group g, zone z" (R50): the admission unit reads the extents through the check (R81). -/
def State.purgeZone (z : ZoneIx) (g : GroupIx) (s : State) : State :=
  let s1 := s.readMemberExtents .admission g
  s1.modEgress fun e => { e with setpoints := e.setpoints.map (·.filter fun q => !s1.travelsInto z g q) }

/-- A zone's owner changes, with its report (R79, R87). -/
def State.changeOwner (z : ZoneIx) (owner : Option GroupIx) (way : ZoneWay) (s : State) : State :=
  { s with zones := s.zones.set z owner }.post (.zoneChange z s.zones[z] owner way)

/-- What a release comes to (R85, R86). -/
inductive Release where
  | released
  | notOwner
  | occupied (o : Occupant)
  deriving DecidableEq, Repr

/-- An accepted release: FREE, purge, report. The purge is taken between the change of owner and its report
(R85). -/
def State.releaseAccepted (z : ZoneIx) (g : GroupIx) (way : ZoneWay) (s : State) : State :=
  let s1 := { s with zones := s.zones.set z none }.purgeZone z g
  s1.post (.zoneChange z (some g) none way)

/-- The zone arbiter takes a release of z by g (R85 steps 2 and 3, R86). -/
def State.release (z : ZoneIx) (g : GroupIx) (way : ZoneWay) (s : State) : State × Release :=
  if s.zones[z] = some g then
    let s1 := s.readMemberExtents .zone g
    match s1.occupant z g with
    | some o => (s1, .occupied o)
    | none => (s1.releaseAccepted z g way, .released)
  else (s, .notOwner)

/-- The outcome an auto-release returns to the sample monitor (R86). -/
def Release.auto : Release → AutoOutcome
  | .released => .released
  | .notOwner => .notOwner
  | .occupied _ => .occupied

/-! ## Requests -/

/-- CLAIM_ZONE (R84). -/
def claim (z : ZoneIx) (g : GroupIx) (s : State) : Answer :=
  let s1 := s.touch .zone (.group g)
  let entry := s1.tables.groups[g]
  if !entry.held.valid || entry.poisoned then .refuse s1 .badIndex
  else match s1.zones[z] with
    | none => .ok (s1.changeOwner z (some g) .claim) []
    | some h => if h = g then .ok s1 [] else .refuse s1 .zoneHeld [natByte h]

/-- RELEASE_ZONE (R85). -/
def releaseRequest (z : ZoneIx) (g : GroupIx) (s : State) : Answer :=
  match s.release z g .release with
  | (s1, .released) => .ok s1 []
  | (s1, .notOwner) => .refuse s1 .notOwner
  | (s1, .occupied o) => .refuse s1 .occupied [natByte o.axis, natByte o.extent]

/-- READ_ENTRY of the ZONE table (R90, R168): nothing is shown of an occupant where there is none (log 16). -/
def readZone (z : ZoneIx) (s : State) : Answer :=
  match s.zones[z] with
  | none => .ok s [0xFF#8, 0, 0xFF#8, 0, 0, 0, 0, 0xFF#8]
  | some g =>
    let s1 := s.readMemberExtents .zone g
    match s1.occupant z g with
    | some o => .ok s1 ([natByte g, 1, natByte o.axis] ++ bytes32 o.position ++ [natByte o.extent])
    | none => .ok s1 [natByte g, 0, 0xFF#8, 0, 0, 0, 0, 0xFF#8]

/-- CLAIM_ZONE. -/
def execClaimZone (s : State) : Result :=
  .next (s.serve fun d => match d with
    | .claimZone z g => some fun s => withIndex 16 z s fun z s => withIndex 8 g s (claim z)
    | _ => none)

/-- RELEASE_ZONE. -/
def execReleaseZone (s : State) : Result :=
  .next (s.serve fun d => match d with
    | .releaseZone z g => some fun s => withIndex 16 z s fun z s => withIndex 8 g s (releaseRequest z)
    | _ => none)

/-- READ_ENTRY naming the ZONE table. -/
def execReadEntryZone (s : State) : Result :=
  .next (s.serve fun d => match d with
    | .readZone i => some fun s => withIndex 16 i s readZone
    | _ => none)

/-- WRITE_ENTRY naming the ZONE table: refused, and changes nothing (R79, R167). -/
def execWriteEntryZone (s : State) : Result :=
  .next (s.serve fun d => match d with
    | .writeZone => some fun s => .refuse s .badRequest
    | _ => none)

end Sys2Proof.Machine
end

