-- ==== Sys2Proof/Machine/Monitor.lean ====
section
/-! DEFINITION. The sample monitor (chapter 4, R25 to R27): a SAMPLE frame taken as one event. -/

namespace Sys2Proof.Machine

/-- What the steps of one sample share: the axis, its group and the group's permit state as they stood when the
frame was taken (R57, R61), the previous position (R58) and the converted sample (R58, R59). -/
structure Taken where
  axis : AxisIx
  group : Option GroupIx
  permit : Option PermitState
  previous : Option Word32
  sample : LatestSample
  deriving DecidableEq, Repr

/-- The group to which the sample's trip requests go: PRIMED or LIVE when the frame was taken (R61). -/
def Taken.watched (t : Taken) : Option GroupIx := if t.permit.any (·.underPermit) then t.group else none

/-! ## Steps 1 and 2 (R58, R59) -/

/-- Conversion and stamp (R2, R58). -/
def SampleFrame.convert (mirrored : Bool) (stamp : Word32) (f : SampleFrame) : LatestSample :=
  ⟨byPolarity mirrored f.position, byPolarity mirrored f.velocity, f.flags, f.cycle, stamp⟩

/-- The sample as the monitor takes it, with the polarity of the entry as read. -/
def State.taken (s : State) (mirrored : Bool) (f : SampleFrame) : Taken :=
  let g := s.groupOf f.axis
  ⟨f.axis, g, g.map s.permitState, s.axisRec[f.axis].latest.map (·.position), f.convert mirrored s.timer.timebase⟩

/-- Step 2 (R59, R25). -/
def State.recordSample (t : Taken) (s : State) : State :=
  s.modAxis t.axis fun r => { r with latest := some t.sample, arrived := true }

/-! ## Step 3 (R61 to R67) -/

/-- Magnitude of a velocity, exact (R64). -/
def speedOf (v : Word16) : Nat := v.toInt.natAbs

/-- Outside the widened window, computed exactly (R1, R63). -/
def AxisFields.overtravel (f : AxisFields) (position : Word32) : Bool :=
  decide (position.toInt < f.softLow.toInt - f.hardMargin.toNat) ||
    decide (f.softHigh.toInt + f.hardMargin.toNat < position.toInt)

/-- R64. -/
def AxisFields.overspeed (f : AxisFields) (velocity : Word16) : Bool := decide (f.velocityLimit.toNat < speedOf velocity)

/-- The lowest live extent of the axis that holds the position in a zone its group does not own (R65, R66). -/
def State.intrudedExtent (s : State) (t : Taken) : Option ExtentIx :=
  (List.finRange 128).find? fun x =>
    s.liveExtent x && s.extentAxis x == some t.axis && s.tables.extents[x].held.holds t.sample.position
      && !(s.zoneOwnedBy s.tables.extents[x].held.zone t.group)

/-- The causes that hold at step 3, in the order of R67. -/
def envelopeCauses (f : AxisFields) (l : LatestSample) (intrudes : Bool) : List Cause :=
  (if l.flags.driveFault then [.driveFault] else []) ++ (if f.overtravel l.position then [.overtravel] else [])
    ++ (if f.overspeed l.velocity then [.overspeed] else []) ++ (if intrudes then [.zoneIntrusion] else [])

/-- Send the requests of step 3 (R61, R67). They travel as events of their own (log 6); a PARK behind the sample takes
them first (State.takeSampled). -/
def State.sendCauses (t : Taken) (causes : List Cause) (s : State) : State :=
  match t.watched with
  | some g => causes.foldl (fun s c => s.send .sampleMonitor ⟨g, ⟨c, .axis t.axis⟩, none⟩) s
  | none => s

/-- The intrusion flag, and the report of an entry into unowned space while not under a permit (R66). -/
def State.intrusion (t : Taken) (x : Option ExtentIx) (s : State) : State :=
  match x with
  | none => s.modAxis t.axis fun r => { r with intrusion := false }
  | some x =>
    let s1 := s.modAxis t.axis fun r => { r with intrusion := true }
    if s.axisRec[t.axis].intrusion || t.watched.isSome then s1
    else s1.post (.zoneIntrusionSeen t.axis x s.tables.extents[x].held.zone t.sample.position t.group t.permit)

/-- Step 3. -/
def State.envelopeStep (t : Taken) (f : AxisFields) (s : State) : State :=
  let s1 := s.touchAll .monitor ((s.extentsOf (· == t.axis)).map .extent)
  let x := s1.intrudedExtent t
  (s1.sendCauses t (envelopeCauses f t.sample x.isSome)).intrusion t x

/-! ## Step 4 (R68 to R71) -/

/-- The new skew state (R71). -/
def SkewState.step (alarm : Word16) (magnitude : Nat) : SkewState → SkewState
  | .normal => if alarm.toNat < magnitude then .alarm else .normal
  | .alarm => if magnitude ≤ alarm.toNat / 2 then .normal else .alarm

/-- A SKEW request, when the limit is exceeded in a group under a permit (R70). -/
def State.skewRequest (t : Taken) (p : PairIx) (f : PairFields) (skew : Int) (s : State) : State :=
  match t.watched with
  | some g =>
    if f.tripLimit.toNat < skew.natAbs then s.send .sampleMonitor ⟨g, ⟨.skew, .pair p⟩, none⟩ else s
  | none => s

/-- Store the skew and take the alarm transition (R69, R71). The report carries the skew as the pair record does,
saturated to 32 bits (log 18). -/
def State.recordSkew (p : PairIx) (f : PairFields) (skew : Int) (cycle : Word16) (s : State) : State :=
  let before := s.pairRec[p].skewState
  let after := before.step f.alarmLimit skew.natAbs
  let s1 := s.modPair p fun _ => ⟨after, some (saturate32 skew, cycle)⟩
  if after = before then s1 else s1.post (.skewAlarm p (after == .alarm) (saturate32 skew) cycle)

/-- An evaluation (R69): lead minus follow, exact. -/
def State.evaluateSkew (t : Taken) (p : PairIx) (f : PairFields) (partner : LatestSample) (s : State) : State :=
  let skew : Int :=
    if f.lead = natByte t.axis then t.sample.position.toInt - partner.position.toInt
    else partner.position.toInt - t.sample.position.toInt
  (s.skewRequest t p f skew).recordSkew p f skew t.sample.cycle

/-- The other axis of a pair, by the index. -/
def State.partnerOf (s : State) (p : PairIx) (a : AxisIx) : Option AxisIx := (s.pairAxes p).find? (· != a)

/-- The entries allow an evaluation (R68, R60). -/
def State.skewReady (s : State) (p : PairIx) (a b : AxisIx) : Bool :=
  s.tables.pairs[p].held.valid && !s.tables.pairs[p].poisoned && !s.tables.axes[a].poisoned
    && !s.tables.axes[b].poisoned && s.axisRec[b].arrived

/-- The permit unit takes the requests in flight from one sender, oldest first. -/
def State.takeSent (w : TripSender) (s : State) : State :=
  (s.inFlight.filter (·.1 = w)).foldl (fun s p => s.trip p.2) { s with inFlight := s.inFlight.filter (·.1 ≠ w) }

/-- A TABLE_FAULT of a read at step 4 is taken behind the requests that the monitor has sent before it (R67; log 6). -/
def State.tripBehindSample (r : TripRequest) (s : State) : State := (s.takeSent .sampleMonitor).trip r

/-- A checked read of step 4 (R57, R67). -/
def State.touchSkew (s : State) (e : EntryRef) : State := s.touchWith State.tripBehindSample .monitor e

/-- Step 4: the pair entry and the partner's axis entry are read at its start (R57). -/
def State.skewStep (t : Taken) (s : State) : State :=
  match s.pairOf t.axis with
  | none => s
  | some p =>
    match s.partnerOf p t.axis with
    | none => s.touchSkew (.pair p)
    | some b =>
      let s1 := (s.touchSkew (.pair p)).touchSkew (.axis b)
      match s1.axisRec[b].latest with
      | some l => if s1.skewReady p t.axis b then s1.evaluateSkew t p s1.tables.pairs[p].held l else s1
      | none => s1

/-! ## Step 5 (R73, R74) -/

/-- From P to N the axis crosses W in the sense (R73). -/
def Sense.crosses (w p n : Int) : Sense → Bool
  | .rising => decide (p < w) && decide (w ≤ n)
  | .falling => decide (w < p) && decide (n ≤ w)
  | .either => (decide (p < w) && decide (w ≤ n)) || (decide (w < p) && decide (n ≤ w))

/-- The auto-release of a firing, with its outcome (R74 step 1, R86). -/
def State.autoRelease (t : Taken) (w : Waypoint) (s : State) : State × Option AutoOutcome :=
  match w.action with
  | .none => (s, none)
  | .releaseZone z =>
    match t.group with
    | none => (s, some .noGroup)
    | some g =>
      let r := s.release z g (.autoRelease t.axis)
      (r.1, some r.2.auto)

/-- Staged to live (R74 step 3). -/
def WaypointSlots.advance (w : WaypointSlots) : WaypointSlots := ⟨w.staged, none⟩

/-- The live way-point fires (R74). -/
def State.fire (t : Taken) (w : Waypoint) (s : State) : State :=
  let r := s.autoRelease t w
  let s1 := r.1.post (.waypoint t.axis w t.sample.position t.sample.cycle t.sample.stamp r.2)
  { s1 with waypoints := upd s1.waypoints t.axis WaypointSlots.advance }

/-- Step 5. -/
def State.waypointStep (t : Taken) (s : State) : State :=
  match s.waypoints[t.axis].live, t.previous with
  | some w, some p =>
    if w.sense.crosses w.position.toInt p.toInt t.sample.position.toInt then s.fire t w else s
  | _, _ => s

/-! ## Steps 6 and 7 (R75, R76) -/

/-- Step 6: an increment for a RUNNING run of the axis's group (R75). -/
def State.creepStep (t : Taken) (s : State) : State :=
  match t.group, t.previous with
  | some g, some p =>
    if s.creep[g].state = .running then s.addIncrement g (distance t.sample.position.toInt p.toInt) else s
  | _, _ => s

/-- Into a sample-forward queue: in place of the axis's entry, or at the tail (R76). -/
def placeForward (e : ForwardEntry) (q : List ForwardEntry) : List ForwardEntry :=
  if q.any (·.axis == e.axis) then q.map fun x => if x.axis = e.axis then e else x else q ++ [e]

/-- Step 7 (R76). A sample that joins a source starts a selection when the transmitter is IDLE (R155). -/
def State.forwardStep (t : Taken) (f : AxisFields) (s : State) : State :=
  if f.forward then
    match segOfByte f.segment with
    | some sg =>
      let e : ForwardEntry := ⟨t.axis, t.sample.cycle, t.sample.position, t.sample.velocity, t.sample.flags⟩
      s.onCl fun ctx c => { c with forward := upd c.forward sg (placeForward e) }.kick ctx
    | none => s
  else s

/-! ## The event -/

/-- Steps 3 to 7, which a poisoned axis skips (R60). -/
def State.judgeSample (t : Taken) (f : AxisFields) (s : State) : State :=
  ((((s.envelopeStep t f).skewStep t).waypointStep t).creepStep t).forwardStep t f

/-- An accepted sample (R57). -/
def State.acceptSample (f : SampleFrame) (s : State) : State :=
  let s1 := s.touch .monitor (.axis f.axis)
  let entry := s1.tables.axes[f.axis]
  let t := s.taken entry.held.mirrored f
  let s2 := s1.recordSample t
  if entry.poisoned then s2 else s2.judgeSample t entry.held

/-- The monitor takes a SAMPLE frame: overtaken by a write (R3), late (R26) or accepted (R25). -/
def State.takeSample (f : SampleFrame) (s : State) : State :=
  if f.overtaken then s
  else if f.cycle = s.timer.cycle then s.acceptSample f
  else s.modAxis f.axis fun r => { r with lateCount := satInc r.lateCount }

/-- SAMPLE: the sample monitor takes the frame at the head of the segment's path (R57, R162). -/
def execSample (sg : SegIx) (s : State) : Result :=
  .next (match s.paths.sample[sg] with
    | f :: rest => ({ s with paths := { s.paths with sample := s.paths.sample.set sg rest } }.takeSample f).settle
    | [] => s)

end Sys2Proof.Machine
end

