-- ==== Sys2Proof/Machine/Timer.lean ====
section
/-! DEFINITION. The cycle timer (chapter 2) and what every block does at a cycle start (the table of R21). -/

namespace Sys2Proof.Machine

/-! ## Sample monitor: miss accounting (R28 to R31) -/

/-- An axis becomes LOST: report, trip request taken in the same event (R107), creep abort (R30). -/
def State.becomeLost (a : AxisIx) (s : State) : State :=
  let g := s.groupOf a
  let s1 := (s.modAxis a fun r => { r with lost := true }).post
    (.axisLost a g (s.axisRec[a].latest.map (·.cycle)))
  match g with
  | some g => (s1.trip ⟨g, ⟨.axisLost, .axis a⟩, none⟩).abortCreep State.trip g (.lost a)
  | none => s1

/-- A sample arrived in the cycle just closed: miss count 0, and recovery of a LOST axis (R29, R31). -/
def State.closeArrived (a : AxisIx) (s : State) : State :=
  let s1 := s.modAxis a fun r => { r with missCount := 0, lost := false, arrived := false }
  if s.axisRec[a].lost then s1.post (.axisRecovered a (s.timer.cycle - 1)) else s1

/-- The miss count has reached the limit while LOST is clear (R30; log 25). -/
def State.lossReached (s : State) (a : AxisIx) : Bool :=
  !s.axisRec[a].lost && s.axisRec[a].missCount.toNat == s.tables.axes[a].held.missLimit.toNat

/-- No sample arrived: the miss count rises, and the axis may become LOST (R29, R30). -/
def State.closeMissed (a : AxisIx) (s : State) : State :=
  let s1 := s.modAxis a fun r => { r with missCount := satInc r.missCount }
  if s1.lossReached a then s1.becomeLost a else s1

/-- The closing of one axis's cycle (R28); the monitor reads its entry (log 11). -/
def State.closeAxis (s : State) (a : AxisIx) : State :=
  let s1 := s.touch .monitor (.axis a)
  if s1.tables.axes[a].held.valid then
    if s1.axisRec[a].arrived then s1.closeArrived a else s1.closeMissed a
  else s1

/-! ## Permit unit (R97) -/

/-- A PRIMED permit whose lapse counter has reached 0 (R97). -/
def State.expirePrime (g : GroupIx) (s : State) : State := s.changePermit g .disarmed 0 .primeExpired

/-- A LIVE permit whose lapse counter has reached 0 (R97). -/
def State.lapse (g : GroupIx) (s : State) : State := s.trip ⟨g, ⟨.lapsed, .none⟩, none⟩

def State.decrementLapse (g : GroupIx) (s : State) : State :=
  s.modPermit g fun p => { p with lapse := satDec p.lapse }

/-- One group's cycle start in the permit unit (R97). -/
def State.permitCycle (s : State) (g : GroupIx) : State :=
  match s.permitState g with
  | .disarmed => s
  | .tripped => s.modPermit g fun p => { p with age := satInc p.age }
  | .primed =>
    let s1 := s.decrementLapse g
    if s1.permits[g].lapse = 0 then s1.expirePrime g else s1
  | .live =>
    let s1 := s.decrementLapse g
    if s1.permits[g].lapse = 0 then s1.lapse g else s1

/-! ## Trip unit (R114) -/

/-- One TRIPPED group's refill of the stop sets (R114). -/
def State.refillGroup (s : State) (g : GroupIx) : State :=
  if s.permitState g = .tripped then
    let s1 := s.touch .trip (.group g)
    (s1.memberList g).foldl (fun s a => s.oweStop State.trip a) s1
  else s

/-! ## Check unit (R128, R133) -/

/-- A record of the check unit. -/
inductive CheckRecord where
  | link (sg : SegIx)
  | creep (g : GroupIx)
  deriving DecidableEq, Repr

def CheckRecord.all : List CheckRecord := (List.finRange 4).map .link ++ (List.finRange 8).map .creep

def State.checkTimeout (sg : SegIx) (s : State) : State :=
  if s.checks[sg].inFlight && s.checks[sg].sent then
    let s1 := s.modCheck sg fun r => { r with timeout := satInc r.timeout }
    if s1.checks[sg].timedOut then s1.endCheck sg .noEcho none else s1
  else s

def State.creepCycle (g : GroupIx) (s : State) : State :=
  if s.creep[g].state = .running then
    let s1 := s.modCreep g fun r => { r with elapsed := satInc r.elapsed }
    if s1.creep[g].complete then s1.finishCreep g else s1
  else s

def State.checkCycle (s : State) : CheckRecord → State
  | .link sg => s.checkTimeout sg
  | .creep g => s.creepCycle g

/-! ## Table store: the scrubber (R143) -/

/-- The entry at a scrub position. -/
def scrubEntry (k : Fin 232) : EntryRef :=
  if h1 : k.val < 64 then .axis ⟨k.val, h1⟩
  else if h2 : k.val < 72 then .group ⟨k.val - 64, by omega⟩
  else if h3 : k.val < 104 then .pair ⟨k.val - 72, by omega⟩
  else .extent ⟨k.val - 104, by omega⟩

/-- One visit: a checked read, and the position moves on. -/
def State.scrubVisit (s : State) : State :=
  (s.touch .scrubber (scrubEntry s.tables.scrubPos)).modTables fun t => { t with scrubPos := t.scrubPos + 1 }

def State.scrubVisits : Nat → State → State
  | 0, s => s
  | n + 1, s => State.scrubVisits n s.scrubVisit

def State.scrub (s : State) : State := State.scrubVisits s.settings.scrubRate.toNat s

/-! ## The cycle start (R21) -/

/-- What takes the cycle start: the blocks of the table of R21, and the arbiters that take the BEACON it makes
pending (R23). -/
inductive CycleTask where
  | monitor | permit | trip | check | tables
  | port (p : PortId)
  | egress (sg : SegIx)
  deriving DecidableEq, Repr

def CycleTask.all : List CycleTask :=
  [.monitor, .permit, .trip, .check, .tables] ++ (List.finRange 4).map (fun n => .port (.seg n)) ++ [.port .cl]
    ++ (List.finRange 4).map .egress

/-- The orders the spec leaves open at a cycle start (log 5). -/
structure CycleOrders where
  tasks : List Nat
  axes : List Nat
  groups : List Nat
  refills : List Nat
  records : List Nat
  deriving DecidableEq, Repr

/-- A segment's arbiter chooses until its transmitter is busy or nothing waits (R52). -/
def State.settleSegFor : Nat → SegIx → State → State
  | 0, _, s => s
  | n + 1, sg, s =>
    if s.egress.tx[sg].isNone && s.egress.waiting sg then State.settleSegFor n sg (s.choose sg) else s

/-- One block's response to the cycle start. -/
def State.cycleTask (o : CycleOrders) (s : State) : CycleTask → State
  | .monitor => (permute o.axes (List.finRange 64)).foldl State.closeAxis s
  | .permit => (permute o.groups (List.finRange 8)).foldl State.permitCycle s
  | .trip => (permute o.refills (List.finRange 8)).foldl State.refillGroup s
  | .check => (permute o.records CheckRecord.all).foldl State.checkCycle s
  | .tables => s.scrub
  | .port p => s.portCycle p
  | .egress sg => State.settleSegFor settleDepth sg s

/-- The timer's own work at a cycle start (R21). -/
def State.advanceCycle (s : State) : State :=
  { s with
    timer := { s.timer with cycle := s.timer.cycle + 1, period := s.settings.cyclePeriod, phase := 0 }
    egress := { s.egress with beacon := Vector.replicate 4 true } }

/-- A cycle start taken in given orders. -/
def State.cycleEventIn (o : CycleOrders) (s : State) : State :=
  (permute o.tasks CycleTask.all).foldl (State.cycleTask o) s.advanceCycle

/-- The orders of this cycle start: free (log 5). -/
def State.cycleOrders (s : State) : CycleOrders :=
  ⟨Config.freeOrder s.freeCount, Config.freeOrder (s.freeCount + 1), Config.freeOrder (s.freeCount + 2),
    Config.freeOrder (s.freeCount + 3), Config.freeOrder (s.freeCount + 4)⟩

/-- The cycle start (R21). -/
def State.cycleEvent (s : State) : State :=
  ({ s with freeCount := s.freeCount + 5 }.cycleEventIn s.cycleOrders).settle

/-- The timebase runs to the end of the current cycle (R19, R20; log 3). -/
def State.elapse (s : State) : State :=
  { s with timer := { s.timer with
      timebase := s.timer.timebase + BitVec.ofNat 32 (s.timer.period.toNat - s.timer.phase.toNat)
      phase := s.timer.period } }

/-- The timebase and the phase advance by one microsecond (R19, R20). -/
def State.advanceClock (s : State) : State :=
  { s with timer := { s.timer with timebase := s.timer.timebase + 1, phase := s.timer.phase + 1 } }

/-- One microsecond passes; at the end of the running period the cycle start is taken (R19, R20; log 2). A soft reset
takes no time, so blocks that have yet to take it do so first (log 20). -/
def State.tick (s : State) : State :=
  let s1 := s.finishResets.settle.advanceClock
  if s1.timer.period.toNat ≤ s1.timer.phase.toNat then s1.cycleEvent else s1

/-! ## The commands -/

/-- CYCLE_START: the phase reaches the running period (R21; log 3), a soft reset being finished before time passes
(log 20). -/
def execCycleStart (s : State) : Result := .next s.finishResets.settle.elapse.cycleEvent

/-- AXIS_LOST: the valid axis whose miss count has reached its limit becomes LOST (R30; log 4). -/
def execAxisLost (a : AxisIx) (s : State) : Result :=
  let s1 := s.touch .monitor (.axis a)
  .next (if s1.tables.axes[a].held.valid && s1.axisRec[a].missCount != 0 && s1.lossReached a then
      (s1.becomeLost a).settle
    else s)

/-- PRIME_EXPIRED: the PRIMED group whose lapse counter has reached 0 returns to DISARMED (R97; log 4). -/
def execPrimeExpired (g : GroupIx) (s : State) : Result :=
  .next (if s.permitState g = .primed ∧ s.permits[g].lapse = 0 then s.expirePrime g else s)

/-- LAPSED: the LIVE group whose lapse counter has reached 0 trips (R97; log 4). -/
def execLapsed (g : GroupIx) (s : State) : Result :=
  .next (if s.permitState g = .live ∧ s.permits[g].lapse = 0 then (s.lapse g).settle else s)

end Sys2Proof.Machine
end

