-- ==== Sys2Proof/Machine/Dispatch.lean ====
section
/-! DEFINITION. The meaning of each command: one arm per constructor. -/

namespace Sys2Proof.Machine

open Sys2Proof

/-- A command's effect on everything but the queue of commands. -/
def exec (i : Instr) (s : State) : Host.Outcome State Fault Refusal :=
  match i with
  | .pinReset pins => Sys2Proof.Machine.execPinReset pins s
  | .cycleStart => Sys2Proof.Machine.execCycleStart s
  | .axisLost a => Sys2Proof.Machine.execAxisLost a s
  | .primeExpired g => Sys2Proof.Machine.execPrimeExpired g s
  | .lapsed g => Sys2Proof.Machine.execLapsed g s
  | .noEcho sg => Sys2Proof.Machine.execNoEcho sg s
  | .creepRunEnd g => Sys2Proof.Machine.execCreepRunEnd g s
  | .segmentDown sg => Sys2Proof.Machine.execSegmentDown sg s
  | .clDown => Sys2Proof.Machine.execClDown s
  | .clFrameReceive bytes => Sys2Proof.Machine.execClFrameReceive bytes s
  | .segmentFrameReceive sg bytes => Sys2Proof.Machine.execSegmentFrameReceive sg bytes s
  | .setpointPosition => Sys2Proof.Machine.execSetpointPosition s
  | .setpointHold => Sys2Proof.Machine.execSetpointHold s
  | .setpointBrake => Sys2Proof.Machine.execSetpointBrake s
  | .sample sg => Sys2Proof.Machine.execSample sg s
  | .echo sg => Sys2Proof.Machine.execEcho sg s
  | .tripRequest sender => Sys2Proof.Machine.execTripRequest sender s
  | .inputLevelChange line level => Sys2Proof.Machine.execInputLevelChange line level s
  | .segmentTransmissionEnd sg => Sys2Proof.Machine.execSegmentTransmissionEnd sg s
  | .clTransmissionEnd => Sys2Proof.Machine.execClTransmissionEnd s
  | .unknownRequest => Sys2Proof.Machine.execUnknownRequest s
  | .readEntryAxis => Sys2Proof.Machine.execReadEntryAxis s
  | .readEntryGroup => Sys2Proof.Machine.execReadEntryGroup s
  | .readEntryPair => Sys2Proof.Machine.execReadEntryPair s
  | .readEntryExtent => Sys2Proof.Machine.execReadEntryExtent s
  | .readEntryZone => Sys2Proof.Machine.execReadEntryZone s
  | .readEntryWaypoint => Sys2Proof.Machine.execReadEntryWaypoint s
  | .readEntryInput => Sys2Proof.Machine.execReadEntryInput s
  | .readEntrySettings => Sys2Proof.Machine.execReadEntrySettings s
  | .readEntrySchedule => Sys2Proof.Machine.execReadEntrySchedule s
  | .writeEntryAxis => Sys2Proof.Machine.execWriteEntryAxis s
  | .writeEntryGroup => Sys2Proof.Machine.execWriteEntryGroup s
  | .writeEntryPair => Sys2Proof.Machine.execWriteEntryPair s
  | .writeEntryExtent => Sys2Proof.Machine.execWriteEntryExtent s
  | .writeEntryZone => Sys2Proof.Machine.execWriteEntryZone s
  | .writeEntryWaypoint => Sys2Proof.Machine.execWriteEntryWaypoint s
  | .writeEntryInput => Sys2Proof.Machine.execWriteEntryInput s
  | .writeEntrySettings => Sys2Proof.Machine.execWriteEntrySettings s
  | .writeEntrySchedule => Sys2Proof.Machine.execWriteEntrySchedule s
  | .permitKeyKArm => Sys2Proof.Machine.execPermitKeyKArm s
  | .permitKeyKRun => Sys2Proof.Machine.execPermitKeyKRun s
  | .permitKeyOther => Sys2Proof.Machine.execPermitKeyOther s
  | .park => Sys2Proof.Machine.execPark s
  | .forceTrip => Sys2Proof.Machine.execForceTrip s
  | .clearTrip => Sys2Proof.Machine.execClearTrip s
  | .claimZone => Sys2Proof.Machine.execClaimZone s
  | .releaseZone => Sys2Proof.Machine.execReleaseZone s
  | .linkCheck => Sys2Proof.Machine.execLinkCheck s
  | .creepStart => Sys2Proof.Machine.execCreepStart s
  | .creepStop => Sys2Proof.Machine.execCreepStop s
  | .creepResult => Sys2Proof.Machine.execCreepResult s
  | .loadSchedule => Sys2Proof.Machine.execLoadSchedule s
  | .readTripRecord => Sys2Proof.Machine.execReadTripRecord s
  | .rewindTripRecords => Sys2Proof.Machine.execRewindTripRecords s
  | .readStatus => Sys2Proof.Machine.execReadStatus s
  | .clearCounters => Sys2Proof.Machine.execClearCounters s
  | .softReset => Sys2Proof.Machine.execSoftReset s

end Sys2Proof.Machine
end

