-- ==== Sys2Proof/Safety.lean ====
section
/-! DEFINITION. What the statements speak of: a state whose records show no error, states that agree but for the
segment transmitters, and the laws that every step keeps. -/

namespace Sys2Proof.Machine

/-- No record shows an error that a read would act on (R138): every record is clean or already poisoned. -/
def State.Sound (s : State) : Prop :=
  ∀ e : EntryRef, s.tables.outcome e = .clean ∨ s.tables.outcome e = .already

/-- Nothing outside the permits, the trip unit, the check unit, the tables' records, the segment and CL transmit sides
and the requests in flight has changed. -/
structure Quiet (s t : State) : Prop where
  timer : t.timer = s.timer
  index : t.tables.index = s.tables.index
  scrubPos : t.tables.scrubPos = s.tables.scrubPos
  axisRec : t.axisRec = s.axisRec
  pairRec : t.pairRec = s.pairRec
  waypoints : t.waypoints = s.waypoints
  zones : t.zones = s.zones
  inputs : t.inputs = s.inputs
  segPorts : t.segPorts = s.segPorts
  clPort : t.clPort = s.clPort
  paths : t.paths = s.paths
  settings : t.settings = s.settings
  requests : t.requests = s.requests
  resets : t.resets = s.resets
  pending : t.pending = s.pending

/-- Agreement but for the segment transmit sides, the sent marks of the link checks and the draws of free values: all
that choices of the segment arbiters change while no record shows an error (R52 to R55). -/
def SameButEgress (s t : State) : Prop :=
  t = { s with egress := t.egress, checks := t.checks, freeCount := t.freeCount } ∧
    ∀ sg : SegIx, t.checks[sg] = { s.checks[sg] with sent := t.checks[sg].sent }

/-- The request is answered from u: its reply joins the reply queue, and idle segment arbiters make their choices
(R146, R52). -/
def Answered (q : Request) (u : State) (status : Status) (parts : List (List Byte)) (t : State) : Prop :=
  ∃ code, q.code = some code ∧ t = (u.pushReply ⟨q.tag, code, status, u.timer.cycle, parts⟩).settle

/-- The management unit can take the request q, which asks d: the reply queue has room, q is the head (R146), and no
block has yet to take a soft reset (log 20). -/
structure State.Presents (s : State) (q : Request) (d : Demand) : Prop where
  done : s.resets = []
  room : s.cl.replies.length < 8
  head : s.requests.head? = some q
  asks : q.demand = d

/-- The command that takes a request (section 10.2). -/
def Demand.command : Demand → Instr
  | .unknown => .unknownRequest
  | .readAxis _ => .readEntryAxis
  | .readGroup _ => .readEntryGroup
  | .readPair _ => .readEntryPair
  | .readExtent _ => .readEntryExtent
  | .readZone _ => .readEntryZone
  | .readWaypoint _ => .readEntryWaypoint
  | .readInput _ => .readEntryInput
  | .readSettings _ => .readEntrySettings
  | .readSchedule _ => .readEntrySchedule
  | .writeAxis _ _ => .writeEntryAxis
  | .writeGroup _ _ => .writeEntryGroup
  | .writePair _ _ => .writeEntryPair
  | .writeExtent _ _ => .writeEntryExtent
  | .writeZone => .writeEntryZone
  | .writeWaypoint _ _ => .writeEntryWaypoint
  | .writeInput _ _ _ => .writeEntryInput
  | .writeSettings _ _ => .writeEntrySettings
  | .writeSchedule _ _ => .writeEntrySchedule
  | .keyArm _ => .permitKeyKArm
  | .keyRun _ => .permitKeyKRun
  | .keyOther _ => .permitKeyOther
  | .park _ => .park
  | .forceTrip _ => .forceTrip
  | .clearTrip _ => .clearTrip
  | .claimZone _ _ => .claimZone
  | .releaseZone _ _ => .releaseZone
  | .linkCheck _ => .linkCheck
  | .creepStart _ _ => .creepStart
  | .creepStop _ => .creepStop
  | .creepResult _ => .creepResult
  | .loadSchedule => .loadSchedule
  | .readTripRecord => .readTripRecord
  | .rewindTripRecords => .rewindTripRecords
  | .readStatus _ => .readStatus
  | .clearCounters => .clearCounters
  | .softReset => .softReset

/-- The command takes a request of the request queue. -/
def takesRequest (c : Instr) : Prop := ∃ d : Demand, d.command = c

/-- The request names an index above its range (R16, R72, R82, R84, R85, R90, R92, R123, R127, R132, R134, R136, R147,
R148, R156). -/
def Demand.badIndex : Demand → Bool
  | .readAxis i => decide (64 ≤ i.toNat)
  | .readGroup i => decide (8 ≤ i.toNat)
  | .readPair i => decide (32 ≤ i.toNat)
  | .readExtent i => decide (128 ≤ i.toNat)
  | .readZone i => decide (16 ≤ i.toNat)
  | .readWaypoint i => decide (64 ≤ i.toNat)
  | .readInput i => decide (8 ≤ i.toNat)
  | .readSettings i => decide (1 ≤ i.toNat)
  | .readSchedule i => decide (32 ≤ i.toNat)
  | .writeAxis i _ => decide (64 ≤ i.toNat)
  | .writeGroup i _ => decide (8 ≤ i.toNat)
  | .writePair i _ => decide (32 ≤ i.toNat)
  | .writeExtent i _ => decide (128 ≤ i.toNat)
  | .writeWaypoint i _ => decide (64 ≤ i.toNat)
  | .writeInput i _ _ => decide (8 ≤ i.toNat)
  | .writeSettings i _ => decide (1 ≤ i.toNat)
  | .writeSchedule i _ => decide (32 ≤ i.toNat)
  | .keyArm g | .keyRun g | .keyOther g | .park g | .forceTrip g | .clearTrip g => decide (8 ≤ g.toNat)
  | .claimZone z g | .releaseZone z g => decide (16 ≤ z.toNat) || decide (8 ≤ g.toNat)
  | .linkCheck a => decide (64 ≤ a.toNat)
  | .creepStart g _ | .creepStop g | .creepResult g => decide (8 ≤ g.toNat)
  | .readStatus page => decide (5 ≤ page.toNat)
  | .unknown | .writeZone | .loadSchedule | .readTripRecord | .rewindTripRecords | .clearCounters | .softReset => false

/-- A permit record after a trip request, by its state (R101, R102). -/
def Permit.afterRequest (r : TripRequest) (p : Permit) : Permit :=
  match p.state with
  | .tripped => { p with further := satInc p.further }
  | .disarmed => if r.cause.cause.commanded then p.toTripped r else p
  | .primed => p.toTripped r
  | .live => p.toTripped r

/-- The request trips its group (R101). -/
def State.tripsOn (s : State) (r : TripRequest) : Prop :=
  s.permitState r.group = .primed ∨ s.permitState r.group = .live ∨
    (s.permitState r.group = .disarmed ∧ r.cause.cause.commanded = true)

/-- The segment is the only one whose arbiter could choose. -/
def State.othersQuiet (s : State) (sg : SegIx) : Prop :=
  ∀ k : SegIx, k ≠ sg → s.egress.tx[k].isSome = true ∨ s.egress.waiting k = false

/-- The CL side once an axis's link checks have ended ABORTED, with their reports in the order of the segments, and its
entries have left the sample-forward queues (R8, R130, R131, R140). -/
def ClSide.withoutAxis (ctx : PostContext) (checks : Vector LinkCheck 4) (a : AxisIx) (c : ClSide) : ClSide :=
  let reported := ((List.finRange 4).filter fun sg => checks[sg].inFlight && checks[sg].axis == a).foldl (fun c sg =>
    c.post ctx (.linkCheckDone a .aborted sg checks[sg].phase checks[sg].expected none checks[sg].stale)) c
  { reported with forward := reported.forward.map (List.filter fun e => e.axis != a) }

/-! ## Laws that every step keeps -/

/-- BRKn is asserted exactly while Gn is LIVE (R106). -/
def BrakeLaw (s : State) : Prop := ∀ g : GroupIx, s.brk[g] = (s.permitState g == .live)

/-- The lapse counter is 0 in DISARMED and TRIPPED (R97), and service half-done is clear outside LIVE (R92). -/
def LapseLaw (s : State) : Prop :=
  ∀ g : GroupIx,
    (s.permitState g = .disarmed ∨ s.permitState g = .tripped → s.permits[g].lapse = 0) ∧
      (s.permitState g ≠ .live → s.permits[g].halfDone = false)

/-- The settings lie in their ranges (R147), and the phase runs below a period in its range (R20, R22). -/
def TimerLaw (s : State) : Prop :=
  s.settings.inRange = true ∧ 500 ≤ s.timer.period.toNat ∧ s.timer.period.toNat ≤ 20000 ∧
    s.timer.phase.toNat < s.timer.period.toNat

/-- The live table names all six sources (R155, R157), and so does the shadow while a load is pending. -/
def ScheduleLaw (s : State) : Prop :=
  missingSource s.cl.schedule.live = none ∧
    (s.cl.schedule.loadPending = true → missingSource s.cl.schedule.shadow = none)

/-- No queue or path holds more than its capacity (R145, R146, R150, R162). -/
def QueueLaw (s : State) : Prop :=
  s.requests.length ≤ 8 ∧ s.cl.replies.length ≤ 8 ∧ s.cl.reports.length ≤ 32 ∧ s.paths.setpoint.length ≤ 8 ∧
    ∀ sg : SegIx, s.paths.sample[sg].length ≤ 8 ∧ s.paths.echo[sg].length ≤ 8

/-- A setpoint queue, a sample-forward queue and a stop set hold each axis at most once (R34, R76, R112); the stop
set's list is ascending. -/
def OneEachLaw (s : State) : Prop :=
  ∀ sg : SegIx, (s.egress.setpoints[sg].map (·.axis)).Nodup ∧ (s.cl.forward[sg].map (·.axis)).Nodup ∧
    s.egress.stopSet[sg].Pairwise (· < ·)

/-- The contents the last accepted write stored, as the check bits restore them (R139). -/
def Stored.intended {F : Type} (r : Stored F) : F :=
  match r.check with
  | .single f => f
  | .lasting f => f
  | .clean => r.held
  | .uncorrectable => r.held

/-- The record shows a single-bit error at every read (R139). -/
def Stored.lasts {F : Type} (r : Stored F) : Bool :=
  match r.check with
  | .lasting _ => true
  | .clean | .single _ | .uncorrectable => false

def TableStore.lasts (t : TableStore) : EntryRef → Bool
  | .axis a => t.axes[a].lasts
  | .group g => t.groups[g].lasts
  | .pair p => t.pairs[p].lasts
  | .extent x => t.extents[x].lasts

/-- The record is neither poisoned nor beyond correction. -/
def Stored.good {F : Type} (r : Stored F) : Prop := r.poisoned = false ∧ r.check ≠ .uncorrectable

/-- No two valid axis entries, both good, hold the same segment and station (R3). -/
def StationLaw (s : State) : Prop :=
  ∀ a b : AxisIx, a ≠ b → s.tables.axes[a].good → s.tables.axes[b].good →
    s.tables.axes[a].intended.valid = true → s.tables.axes[b].intended.valid = true →
      ¬(s.tables.axes[a].intended.segment = s.tables.axes[b].intended.segment ∧
        s.tables.axes[a].intended.station = s.tables.axes[b].intended.station)

/-- The members of a good group entry are the axes the index gives it, a good entry not valid lists none (R4), and a
good axis entry that the index gives a group is valid (R7, R11). -/
def IndexLaw (s : State) : Prop :=
  (∀ g : GroupIx, s.tables.groups[g].good →
    ∀ a : AxisIx, natByte a ∈ s.tables.groups[g].intended.members ↔ s.groupOf a = some g) ∧
  ∀ a : AxisIx, (s.groupOf a).isSome = true → s.tables.axes[a].good → s.tables.axes[a].intended.valid = true

/-- A good group entry that is valid lies in the ranges of R9. -/
def RangeLaw (s : State) : Prop :=
  ∀ g : GroupIx, s.tables.groups[g].good → s.tables.groups[g].intended.valid = true →
    s.tables.groups[g].intended.inRange g = true

/-- A good axis entry lies in the ranges of R1 when it is valid, and holds the default contents when it is not. -/
def AxisRangeLaw (s : State) : Prop :=
  ∀ a : AxisIx, s.tables.axes[a].good →
    (s.tables.axes[a].intended.valid = true → s.tables.axes[a].intended.inRange = true) ∧
      (s.tables.axes[a].intended.valid = false → s.tables.axes[a].intended = AxisFields.default)

/-- The axis has a valid entry, not poisoned, that holds the segment. -/
def State.livesOn (s : State) (a : AxisIx) (sg : SegIx) : Prop :=
  s.tables.axes[a].held.valid = true ∧ s.tables.axes[a].poisoned = false ∧
    segOfByte s.tables.axes[a].held.segment = some sg

/-- An axis with an entry in a segment's setpoint or sample-forward queue has a valid entry on that segment
(R34, R76). -/
def QueuedLaw (s : State) : Prop :=
  ∀ sg : SegIx, (∀ q ∈ s.egress.setpoints[sg], s.livesOn q.axis sg) ∧ ∀ e ∈ s.cl.forward[sg], s.livesOn e.axis sg

/-- The lapse counter runs from 1 to the prime window in PRIMED, and from 1 to the service interval in LIVE (R97). -/
def LapseBoundLaw (s : State) : Prop :=
  ∀ g : GroupIx,
    (s.permitState g = .primed → 1 ≤ s.permits[g].lapse.toNat ∧
      s.permits[g].lapse.toNat ≤ s.tables.groups[g].held.primeWindow.toNat) ∧
    (s.permitState g = .live → 1 ≤ s.permits[g].lapse.toNat ∧
      s.permits[g].lapse.toNat ≤ s.tables.groups[g].held.serviceInterval.toNat)

/-- Every queued POSITION setpoint belongs to an axis whose group is LIVE, its target lies in the axis's soft window,
and every live extent of the axis overlapping its travel is of a zone that the group owns (R51). -/
def PositionLaw (s : State) : Prop :=
  ∀ sg : SegIx, ∀ q ∈ s.egress.setpoints[sg], q.mode = .position →
    ∃ g : GroupIx, s.groupOf q.axis = some g ∧ s.permitState g = .live ∧
      s.tables.axes[q.axis].held.softLow.toInt ≤ q.target.toInt ∧
      q.target.toInt ≤ s.tables.axes[q.axis].held.softHigh.toInt ∧
      ∀ x : ExtentIx, s.liveExtent x = true → s.extentAxis x = some q.axis →
        travelOverlaps q.reference.toInt q.target.toInt s.tables.extents[x].held.low.toInt
          s.tables.extents[x].held.high.toInt = true →
        s.zoneOwnedBy s.tables.extents[x].held.zone (some g) = true

/-- A group that is PRIMED or LIVE has a valid entry, each of its members has a valid entry, is checked and is not
LOST, and no entry that belongs to it is poisoned (R107). While blocks have yet to take a soft reset no group is PRIMED
or LIVE (R153). -/
def ArmedLaw (s : State) : Prop :=
  ∀ g : GroupIx, s.permitState g = .primed ∨ s.permitState g = .live →
    s.resets = [] ∧ s.tables.groups[g].held.valid = true ∧ s.tables.groups[g].poisoned = false ∧
      ∀ a : AxisIx, s.groupOf a = some g →
        s.axisRec[a].checked = true ∧ s.axisRec[a].lost = false ∧ s.tables.axes[a].held.valid = true ∧
          s.tables.axes[a].poisoned = false ∧ (∀ p, s.pairOf a = some p → s.tables.pairs[p].poisoned = false) ∧
          ∀ x : ExtentIx, s.extentAxis x = some a → s.tables.extents[x].poisoned = false

end Sys2Proof.Machine
end

