-- ==== Sys2Proof/Certificates/Slice0/Obligations.lean ====
section
/-! DEFINITION. The statements for the provers, by the chapters of the spec. -/

open Sys2Proof Sys2Proof.Machine

/-! ## The step, time and reset -/

/-- A step takes the command at the front of the queue and runs it on the rest. -/
def Obligations.StepRunsFrontCommand : Prop :=
  ∀ (c : Instr) (rest : List Instr) (s : State), s.pending = c :: rest →
    Machine.step s = exec c { s with pending := rest }

/-- Log 2, the model's choice: on an empty queue one microsecond passes (R19, R20), and the cycle start is taken when
the phase reaches the running period. Blocks that have yet to take a soft reset do so first (R154; log 20). -/
def Obligations.IdleStepAdvancesClock : Prop :=
  ∀ s u : State, s.pending = [] → u = s.finishResets →
    u.resets = [] ∧ (s.resets = [] → u = s) ∧
    (u.timer.phase.toNat + 1 < u.timer.period.toNat →
      ∃ t, Machine.step s = .next t ∧
        t.timer = ⟨u.timer.timebase + 1, u.timer.cycle, u.timer.period, u.timer.phase + 1⟩ ∧
        t = { u.settle with timer := t.timer }) ∧
    (u.timer.phase.toNat + 1 = u.timer.period.toNat →
      ∃ t, Machine.step s = .next t ∧
        t.timer = ⟨u.timer.timebase + 1, u.timer.cycle + 1, u.settings.cyclePeriod, 0⟩ ∧
        t = u.settle.advanceClock.cycleEvent)

/-- Pin reset leaves the values the spec gives and the levels of the pins; the queue of commands is the model's own.
The limits in use at the ports are those of the default settings (R160; log 4). -/
def Obligations.PinResetLeavesResetValues : Prop :=
  ∀ (pins : Vector Level 8) (s : State), ∃ t, exec (.pinReset pins) s = .next t ∧
    t.timer = ⟨0, 0, 2000#16, 0⟩ ∧
    (∀ g : GroupIx, t.permits[g] = ⟨.disarmed, 0, false, none, none, 0, 0⟩ ∧ t.brk[g] = false ∧
      t.tables.groups[g] = .fresh GroupFields.default ∧ t.creep[g] = ⟨.none, 0, 0, 0, .unknown⟩) ∧
    (∀ a : AxisIx, t.tables.axes[a] = .fresh AxisFields.default ∧
      t.axisRec[a] = ⟨false, none, false, 0, false, false, 0, 0, false⟩ ∧
      t.tables.index[a] = ⟨none, none⟩ ∧ t.waypoints[a] = ⟨none, none⟩) ∧
    (∀ p : PairIx, t.tables.pairs[p] = .fresh PairFields.default ∧ t.pairRec[p] = ⟨.normal, none⟩) ∧
    (∀ x : ExtentIx, t.tables.extents[x] = .fresh ExtentFields.default) ∧
    t.tables.scrubPos = 0 ∧ t.tables.axisErrors = ⟨0, false, .none⟩ ∧ t.tables.groupErrors = ⟨0, false, .none⟩ ∧
    t.tables.pairErrors = ⟨0, false, .none⟩ ∧ t.tables.extentErrors = ⟨0, false, .none⟩ ∧
    (∀ z : ZoneIx, t.zones[z] = none) ∧
    (∀ l : LineIx, t.inputs[l] = ⟨pins[l], .high, 0⟩) ∧
    (∀ sg : SegIx, t.segPorts[sg] = ⟨⟨.down, 0, false, 0, 5⟩, 0⟩ ∧ t.checks[sg].inFlight = false ∧
      t.checks[sg].phase = .complement ∧ t.checks[sg].timeout = 0 ∧ t.checks[sg].stale = 0 ∧
      t.egress.stopSet[sg] = [] ∧ t.egress.beacon[sg] = true ∧
      t.egress.setpoints[sg] = [] ∧ t.egress.checkSlot[sg] = none ∧ t.egress.tx[sg] = none ∧
      t.cl.forward[sg] = []) ∧
    t.clPort = ⟨⟨.down, 0, false, 0, 25⟩, 0⟩ ∧ t.settings = ⟨2000#16, 25#8, 5#8, 1#8, 0x4E71#16, 0x7FFF#16⟩ ∧
    t.ring = ⟨Vector.replicate 8 none, 0, 0, 0⟩ ∧ t.inFlight = [] ∧
    t.paths = ⟨[], Vector.replicate 4 [], Vector.replicate 4 []⟩ ∧ t.requests = [] ∧ t.cl.replies = [] ∧
    t.cl.reports = [] ∧
    t.cl.overrunTotal = 0 ∧ t.cl.tx = none ∧
    t.cl.schedule = ⟨Schedule.defaultTable, Schedule.defaultTable, false, 0⟩ ∧ t.resets = [] ∧ t.pending = s.pending

/-- Every law that the statements below show each step to keep holds after reset. -/
def Obligations.LawsHoldAtReset : Prop :=
  State.reset.Sound ∧ BrakeLaw State.reset ∧ LapseLaw State.reset ∧ LapseBoundLaw State.reset ∧ TimerLaw State.reset ∧
    ScheduleLaw State.reset ∧ QueueLaw State.reset ∧ OneEachLaw State.reset ∧ QueuedLaw State.reset ∧
    StationLaw State.reset ∧ IndexLaw State.reset ∧ RangeLaw State.reset ∧ AxisRangeLaw State.reset ∧
    PositionLaw State.reset ∧ ArmedLaw State.reset

/-- A cycle start: the timer's own work (R21) with the time run to the cycle's end (log 3), a BEACON owed on every
segment (R23), then the response of every block in an order the spec leaves open (log 5), and what no response touches.
Blocks that have yet to take a soft reset do so first (log 20). -/
def Obligations.CycleStartAdvancesTimer : Prop :=
  (∀ s u : State, u = s.finishResets.settle → ∃ (v t : State) (tasks : List CycleTask) (o : CycleOrders),
    exec .cycleStart s = .next t ∧
    v = { u with
      timer := ⟨u.timer.timebase + BitVec.ofNat 32 (u.timer.period.toNat - u.timer.phase.toNat), u.timer.cycle + 1,
        u.settings.cyclePeriod, 0⟩
      egress := { u.egress with beacon := Vector.replicate 4 true }
      freeCount := v.freeCount } ∧
    tasks.Perm CycleTask.all ∧ t = (tasks.foldl (State.cycleTask o) v).settle ∧
    t.timer = v.timer ∧ (s.resets = [] → u = s.settle) ∧ t.resets = [] ∧
    t.tables.index = s.tables.index ∧ t.pairRec = u.pairRec ∧ t.waypoints = u.waypoints ∧ t.zones = u.zones ∧
    t.inputs = s.inputs ∧ t.paths = s.paths ∧ t.settings = s.settings ∧ t.requests = s.requests ∧
    t.pending = s.pending) ∧
  ∀ (s : State) (o : CycleOrders),
    (∃ axes : List AxisIx, axes.Perm (List.finRange 64) ∧ s.cycleTask o .monitor = axes.foldl State.closeAxis s) ∧
    (∃ groups : List GroupIx, groups.Perm (List.finRange 8) ∧
      s.cycleTask o .permit = groups.foldl State.permitCycle s) ∧
    (∃ groups : List GroupIx, groups.Perm (List.finRange 8) ∧
      s.cycleTask o .trip = groups.foldl State.refillGroup s) ∧
    (∃ records : List CheckRecord, records.Perm CheckRecord.all ∧
      s.cycleTask o .check = records.foldl State.checkCycle s) ∧
    s.cycleTask o .tables = s.scrub ∧ (∀ p : PortId, s.cycleTask o (.port p) = s.portCycle p)

/-- From a state with nothing to send, no soft reset under way and no command waiting, the idle steps that are left of a
cycle come to its cycle start. -/
def Obligations.IdleStepsReachCycleStart : Prop :=
  ∀ s : State, s.pending = [] → s.resets = [] → s.egress.idleWaiting = [] →
    s.timer.phase.toNat < s.timer.period.toNat →
    Sys2Proof.core.run (s.timer.period.toNat - s.timer.phase.toNat) s = exec .cycleStart s

/-- The closing of one axis's cycle (R28 to R31), with the reports AXIS_RECOVERED and AXIS_LOST, while no record shows an
error, and of one port's (R160): a port that falls silent goes DOWN in this event, with the report and the rest as the
command of its loss has it go. -/
def Obligations.MissAccountingClosesCycle : Prop :=
  (∀ (s : State) (a : AxisIx), s.Sound →
    (s.tables.axes[a].held.valid = false → s.closeAxis a = s) ∧
    (s.tables.axes[a].held.valid = true →
      Quiet { s with axisRec := (s.closeAxis a).axisRec } (s.closeAxis a) ∧
      (∀ b : AxisIx, b ≠ a → (s.closeAxis a).axisRec[b] = s.axisRec[b]) ∧
      (s.axisRec[a].arrived = true →
        (s.closeAxis a).axisRec[a] = { s.axisRec[a] with missCount := 0, lost := false, arrived := false } ∧
        s.closeAxis a = { s with
          axisRec := (s.closeAxis a).axisRec
          cl := if s.axisRec[a].lost = true then s.cl.post s.postContext (.axisRecovered a (s.timer.cycle - 1))
            else s.cl }) ∧
      (s.axisRec[a].arrived = false →
        (s.closeAxis a).axisRec[a] = { s.axisRec[a] with
          missCount := satInc s.axisRec[a].missCount
          lost := s.axisRec[a].lost ||
            (satInc s.axisRec[a].missCount).toNat == s.tables.axes[a].held.missLimit.toNat } ∧
        (s.closeAxis a).permits =
          (if s.axisRec[a].lost = false ∧
              (satInc s.axisRec[a].missCount).toNat = s.tables.axes[a].held.missLimit.toNat then
            match s.groupOf a with
            | some g => upd s.permits g (·.afterRequest ⟨g, ⟨.axisLost, .axis a⟩, none⟩)
            | none => s.permits
          else s.permits) ∧
        ∃ v : State, v = { s with
            axisRec := upd s.axisRec a (fun r => { r with missCount := satInc r.missCount, lost := true })
            cl := s.cl.post s.postContext (.axisLost a (s.groupOf a) (s.axisRec[a].latest.map LatestSample.cycle)) } ∧
          s.closeAxis a =
            if s.axisRec[a].lost = false ∧
                (satInc s.axisRec[a].missCount).toNat = s.tables.axes[a].held.missLimit.toNat then
              match s.groupOf a with
              | some g => (v.trip ⟨g, ⟨.axisLost, .axis a⟩, none⟩).abortCreep State.trip g (.lost a)
              | none => v
            else { s with axisRec := (s.closeAxis a).axisRec }))) ∧
  ∀ (s : State) (p : PortId) (u : State),
    u = s.modPort p (fun q => { q with
      seen := false, silence := if q.seen then q.silence else satInc q.silence, limit := s.silenceLimit p }) →
    ((s.portOf p).seen = true ∨ (s.portOf p).link = .down ∨
        (satInc (s.portOf p).silence).toNat < (s.silenceLimit p).toNat → s.portCycle p = u) ∧
    ((s.portOf p).seen = false → (s.portOf p).link = .up →
        (s.silenceLimit p).toNat ≤ (satInc (s.portOf p).silence).toNat →
      (s.portCycle p).portOf p = { u.portOf p with link := .down } ∧
      (∀ sg, p = .seg sg → exec (.segmentDown sg) u = .next (s.portCycle p).settle) ∧
      (p = .cl → exec .clDown u = .next (s.portCycle p)))

/-- The responses to a cycle start of the permit unit (R97), by what each state's group comes to, of the trip unit
(R114), of the check unit (R128, R133) and of the scrubber (R143), with the reports PERMIT_CHANGE (R108), LINK_CHECK_DONE
(R131) and CREEP_DONE (R136). -/
def Obligations.LapseCountersRunDown : Prop :=
  (∀ (s : State) (g : GroupIx), Quiet s (s.permitCycle g) ∧
    (s.permitState g = .disarmed → s.permitCycle g = s) ∧
    (s.permitState g = .tripped →
      s.permitCycle g = s.modPermit g fun p => { p with age := satInc p.age }) ∧
    (s.permitState g = .primed →
      (satDec s.permits[g].lapse ≠ 0 →
        s.permitCycle g = s.modPermit g fun p => { p with lapse := satDec p.lapse }) ∧
      (satDec s.permits[g].lapse = 0 → s.permitCycle g = { s with
        permits := upd s.permits g (fun p => { p with state := .disarmed, lapse := 0, halfDone := false })
        brk := s.brk.set g false
        cl := s.cl.post s.postContext (.permitChange g .primed .disarmed .primeExpired 0) })) ∧
    (s.permitState g = .live →
      (satDec s.permits[g].lapse ≠ 0 →
        s.permitCycle g = s.modPermit g fun p => { p with lapse := satDec p.lapse }) ∧
      (satDec s.permits[g].lapse = 0 →
        s.permitCycle g = (s.modPermit g fun p => { p with lapse := satDec p.lapse }).trip
          ⟨g, ⟨.lapsed, .none⟩, none⟩ ∧
        (s.permitCycle g).permitState g = .tripped ∧
          (s.permitCycle g).permits[g].cause = some ⟨.lapsed, .none⟩ ∧ (s.permitCycle g).brk[g] = false))) ∧
  (∀ (s : State) (g : GroupIx),
    (s.permitState g ≠ .tripped → s.refillGroup g = s) ∧
    (s.permitState g = .tripped → s.Sound → ∃ v : Vector (List AxisIx) 4,
      s.refillGroup g = { s with egress := { s.egress with stopSet := v } } ∧
      ∀ (sg : SegIx) (a : AxisIx), a ∈ v[sg] ↔ a ∈ s.egress.stopSet[sg] ∨
        (a ∈ s.memberList g ∧ segOfByte s.tables.axes[a].held.segment = some sg))) ∧
  (∀ (s : State) (sg : SegIx),
    (s.checks[sg].inFlight = false ∨ s.checks[sg].sent = false → s.checkTimeout sg = s) ∧
    (s.checks[sg].inFlight = true → s.checks[sg].sent = true →
      (s.checkTimeout sg).checks = upd s.checks sg (fun r => { r with
        timeout := satInc r.timeout, inFlight := satInc r.timeout != 4 }) ∧
      s.checkTimeout sg = { s with
        checks := (s.checkTimeout sg).checks
        cl := if satInc s.checks[sg].timeout = 4 then s.cl.post s.postContext (.linkCheckDone s.checks[sg].axis .noEcho
          sg s.checks[sg].phase s.checks[sg].expected none s.checks[sg].stale) else s.cl })) ∧
  (∀ (s : State) (g : GroupIx),
    (s.creep[g].state ≠ .running → s.creepCycle g = s) ∧
    (s.creep[g].state = .running → s.Sound →
      (s.creepCycle g).creep = upd s.creep g (fun r =>
        if r.duration ≠ 0 ∧ satInc r.elapsed = r.duration then { r with
          elapsed := satInc r.elapsed, state := .done, verdict := creepVerdict s.tables.groups[g] r }
        else { r with elapsed := satInc r.elapsed }) ∧
      s.creepCycle g = { s with
        creep := (s.creepCycle g).creep
        cl := if s.creep[g].duration ≠ 0 ∧ satInc s.creep[g].elapsed = s.creep[g].duration then
            s.cl.post s.postContext
              (.creepDone g (s.creepCycle g).creep[g] s.tables.groups[g].held.creepLimit none)
          else s.cl })) ∧
  (∀ s : State, s.scrub.tables.scrubPos.val = (s.tables.scrubPos.val + s.settings.scrubRate.toNat) % 232 ∧
    Quiet { s with tables := { s.tables with scrubPos := s.scrub.tables.scrubPos } } s.scrub ∧
    s.scrub = State.scrubVisits s.settings.scrubRate.toNat s ∧
    s.scrubVisit = (s.touch .scrubber (scrubEntry s.tables.scrubPos)).modTables
      fun t => { t with scrubPos := s.tables.scrubPos + 1 }) ∧
  (∀ a : AxisIx, scrubEntry ⟨a.val, by omega⟩ = .axis a) ∧
  (∀ g : GroupIx, scrubEntry ⟨64 + g.val, by omega⟩ = .group g) ∧
  (∀ p : PairIx, scrubEntry ⟨72 + p.val, by omega⟩ = .pair p) ∧
  ∀ x : ExtentIx, scrubEntry ⟨104 + x.val, by omega⟩ = .extent x

/-- Counts that stand at their limits, each taken as a command of its own (log 4), with its report: AXIS_LOST (R30),
PRIME_EXPIRED, LAPSED (R97), NO_ECHO (R128, R131), CREEP_RUN_END (R133, R136), SEGMENT_DOWN (R163), CL_DOWN (R164). -/
def Obligations.ReachedCountsTakeEffect : Prop :=
  ∀ s : State,
    (∀ (a : AxisIx) (u : State), u = s.touch .monitor (.axis a) → u.tables.axes[a].held.valid = true →
      s.axisRec[a].missCount ≠ 0 → s.axisRec[a].lost = false →
      s.axisRec[a].missCount.toNat = u.tables.axes[a].held.missLimit.toNat →
      ∃ t v, exec (.axisLost a) s = .next t ∧
        v = { u with
          axisRec := upd s.axisRec a (fun r => { r with lost := true })
          cl := u.cl.post s.postContext (.axisLost a (s.groupOf a) (s.axisRec[a].latest.map LatestSample.cycle)) } ∧
        t = State.settle (match s.groupOf a with
          | some g => (v.trip ⟨g, ⟨.axisLost, .axis a⟩, none⟩).abortCreep State.trip g (.lost a)
          | none => v) ∧
        t.axisRec = upd s.axisRec a (fun r => { r with lost := true }) ∧
        Quiet { s with axisRec := t.axisRec } t ∧
        ∀ g, s.groupOf a = some g → u.permitState g = .primed ∨ u.permitState g = .live →
          t.permitState g = .tripped ∧ t.permits[g].cause = some ⟨.axisLost, .axis a⟩) ∧
    (∀ g : GroupIx, s.permitState g = .primed → s.permits[g].lapse = 0 →
      exec (.primeExpired g) s = .next { s with
        permits := upd s.permits g (fun p => { p with state := .disarmed, lapse := 0, halfDone := false })
        brk := s.brk.set g false
        cl := s.cl.post s.postContext (.permitChange g .primed .disarmed .primeExpired 0) }) ∧
    (∀ g : GroupIx, s.permitState g = .live → s.permits[g].lapse = 0 →
      ∃ t, exec (.lapsed g) s = .next t ∧ t = (s.trip ⟨g, ⟨.lapsed, .none⟩, none⟩).settle ∧ Quiet s t ∧
        t.permitState g = .tripped ∧
        t.permits[g].cause = some ⟨.lapsed, .none⟩ ∧ t.brk[g] = false) ∧
    (∀ sg : SegIx, s.checks[sg].inFlight = true → s.checks[sg].sent = true → s.checks[sg].timeout = 4 →
      exec (.noEcho sg) s = .next { s with
        checks := upd s.checks sg (fun r => { r with inFlight := false })
        cl := s.cl.post s.postContext (.linkCheckDone s.checks[sg].axis .noEcho sg s.checks[sg].phase
          s.checks[sg].expected none s.checks[sg].stale) }) ∧
    (∀ g : GroupIx, s.Sound → s.creep[g].state = .running → s.creep[g].duration ≠ 0 →
      s.creep[g].elapsed = s.creep[g].duration →
      ∃ t u : State, exec (.creepRunEnd g) s = .next t ∧ t = u.settle ∧ Quiet s t ∧ t.permits = s.permits ∧
        t.creep = u.creep ∧
        u = { s with
          creep := upd s.creep g (fun r => { r with state := .done, verdict := creepVerdict s.tables.groups[g] r })
          cl := s.cl.post s.postContext
            (.creepDone g u.creep[g] s.tables.groups[g].held.creepLimit none) }) ∧
    (∀ sg : SegIx, s.segPorts[sg].port.link = .up → s.segPorts[sg].port.seen = false →
      s.segPorts[sg].port.limit.toNat ≤ s.segPorts[sg].port.silence.toNat →
      ∃ (t v : State) (c : ClSide), exec (.segmentDown sg) s = .next t ∧
        c = s.cl.post s.postContext (.portChange (.seg sg) .down s.segPorts[sg].port.silence) ∧
        v = { s with
          segPorts := t.segPorts, axisRec := t.axisRec
          checks := upd s.checks sg (fun r => { r with inFlight := false })
          egress := { s.egress with checkSlot :=
            if s.checks[sg].inFlight = true ∧ s.checks[sg].sent = false then s.egress.checkSlot.set sg none
            else s.egress.checkSlot }
          cl := if s.checks[sg].inFlight = true then c.post s.postContext (.linkCheckDone s.checks[sg].axis
            .segmentDown sg s.checks[sg].phase s.checks[sg].expected none s.checks[sg].stale) else c } ∧
        t = (((List.finRange 8).filter fun g => (s.axesOn sg).any fun a => s.groupOf a == some g).foldl
          (fun u g => u.trip ⟨g, ⟨.segmentDown, .port (.seg sg)⟩, none⟩) v).settle ∧
        t.segPorts = upd s.segPorts sg (fun q => { q with port := { q.port with link := .down } }) ∧
        (∀ a : AxisIx, t.axisRec[a] = if segOfByte s.tables.axes[a].held.segment = some sg then
          { s.axisRec[a] with checked := false } else s.axisRec[a]) ∧
        t.checks[sg].inFlight = false ∧ Quiet { s with segPorts := t.segPorts, axisRec := t.axisRec } t) ∧
    (s.clPort.port.link = .up → s.clPort.port.seen = false →
      s.clPort.port.limit.toNat ≤ s.clPort.port.silence.toNat →
      ∃ t, exec .clDown s = .next t ∧ t.clPort = { s.clPort with port := { s.clPort.port with link := .down } } ∧
        t = { s with
          clPort := t.clPort, inFlight := t.inFlight
          cl := s.cl.post s.postContext (.portChange .cl .down s.clPort.port.silence) } ∧
        t.inFlight = s.inFlight ++
          (List.finRange 8).map fun g => (TripSender.clPort, ⟨g, ⟨.supervisorLost, .port .cl⟩, none⟩))

/-! ## Links, frames and transmitters -/

/-- The check word of the nine bytes 31h to 39h (R165), the frames that pass each port's checks (R161), and the fields
that a segment frame's payload carries (R166, section 12.6). -/
def Obligations.CheckWordMatchesExample : Prop :=
  checkWordOf [0x31#8, 0x32#8, 0x33#8, 0x34#8, 0x35#8, 0x36#8, 0x37#8, 0x38#8, 0x39#8] = 0x29B1#16 ∧
    (∀ kind address tag : Byte, ∀ payload : List Byte, payload.length ≤ 56 →
      parseFrame (buildFrame kind address tag payload) = some ⟨kind, address, tag, payload⟩) ∧
    (∀ (bytes : List Byte) (f : RawFrame), clFrameOf bytes = some f ↔
      bytes = buildFrame f.kind f.address f.tag f.payload ∧ f.payload.length ≤ 56 ∧
        ((f.kind = 1 ∧ (f.address.toNat ≤ 63 ∨ f.address = 0xFF#8)) ∨
          (f.kind = 2 ∧ f.address = 0xFF#8 ∧ f.payload = []) ∨ (f.kind = 3 ∧ f.address = 0xFF#8))) ∧
    (∀ (bytes : List Byte) (f : RawFrame), segFrameOf bytes = some f ↔
      bytes = buildFrame f.kind f.address f.tag f.payload ∧ 1 ≤ f.address.toNat ∧ f.address.toNat ≤ 32 ∧
        ((f.kind = 6 ∧ f.payload.length = 9) ∨
          (f.kind = 10 ∧ ∃ w1 w0 m : Byte, f.payload = [w1, w0, m] ∧ m.toNat ≤ 1))) ∧
    (∀ (a : AxisIx) (cycle : Word16) (x : Word32) (v : Word16) (flags : Byte),
      parseSample a (bytes16 cycle ++ bytes32 x ++ bytes16 v ++ [flags]) =
        some ⟨a, cycle, x, v, ⟨flags.getLsbD 0, flags.getLsbD 1, flags.getLsbD 2⟩, false⟩) ∧
    ∀ (a : AxisIx) (word : Word16), parseEcho a (bytes16 word ++ [0]) = some ⟨a, word, .forward, false⟩ ∧
      parseEcho a (bytes16 word ++ [1]) = some ⟨a, word, .reversed, false⟩

/-- A frame received on CL (R160 to R162, R145), with the PORT_CHANGE report of a port that goes UP. -/
def Obligations.ClFramesAreSorted : Prop :=
  ∀ (bytes : List Byte) (s : State),
    (clFrameOf bytes = none → exec (.clFrameReceive bytes) s = .next (s.countBad .cl)) ∧
    (∀ f, clFrameOf bytes = some f → ∃ t, exec (.clFrameReceive bytes) s = .next t ∧
      t = { s with clPort := t.clPort, cl := t.cl, paths := t.paths, requests := t.requests } ∧
      (s.clPort.port.link = .up → t.cl = s.cl) ∧
      (s.clPort.port.link = .down → t.cl = s.cl.post s.postContext (.portChange .cl .up 0)) ∧
      (f.kind = kindAlive →
        t.paths = s.paths ∧ t.requests = s.requests ∧
          t.clPort = ⟨{ s.clPort.port with link := .up, silence := 0, seen := true }, s.clPort.dropped⟩) ∧
      (f.kind = kindSetpoint → t.requests = s.requests ∧
        (s.paths.setpoint.length < 8 →
          t.clPort = ⟨{ s.clPort.port with link := .up, silence := 0, seen := true }, s.clPort.dropped⟩ ∧
          t.paths = { s.paths with setpoint := s.paths.setpoint ++ [⟨f.address, f.payload⟩] }) ∧
        (8 ≤ s.paths.setpoint.length →
          t.clPort = ⟨{ s.clPort.port with link := .up, silence := 0, seen := true, bad := satInc s.clPort.port.bad },
            s.clPort.dropped⟩ ∧ t.paths = s.paths)) ∧
      (f.kind = kindRequest → t.paths = s.paths ∧
        (s.requests.length < 8 →
          t.clPort = ⟨{ s.clPort.port with link := .up, silence := 0, seen := true }, s.clPort.dropped⟩ ∧
          t.requests = s.requests ++ [⟨f.tag, f.payload.head?, f.payload.tail⟩]) ∧
        (8 ≤ s.requests.length →
          t.clPort = ⟨{ s.clPort.port with link := .up, silence := 0, seen := true }, satInc s.clPort.dropped⟩ ∧
          t.requests = s.requests)))

/-- A frame received on a segment (R160 to R162), with the PORT_CHANGE report of a port that goes UP. -/
def Obligations.SegmentFramesAreMapped : Prop :=
  ∀ (sg : SegIx) (bytes : List Byte) (s : State),
    (segFrameOf bytes = none → exec (.segmentFrameReceive sg bytes) s = .next (s.countBad (.seg sg))) ∧
    (∀ f, segFrameOf bytes = some f → ∃ t, exec (.segmentFrameReceive sg bytes) s = .next t ∧
      t = { s with segPorts := t.segPorts, cl := t.cl, paths := t.paths } ∧
      (∀ k : SegIx, k ≠ sg → t.segPorts[k] = s.segPorts[k]) ∧
      (s.segPorts[sg].port.link = .up → t.cl = s.cl) ∧
      (s.segPorts[sg].port.link = .down → t.cl = s.cl.post s.postContext (.portChange (.seg sg) .up 0)) ∧
      (s.stationMap sg f.address = none →
        t.segPorts[sg] = ⟨{ s.segPorts[sg].port with link := .up, silence := 0, seen := true },
          satInc s.segPorts[sg].unmapped⟩ ∧ t.paths = s.paths) ∧
      (∀ a m, s.stationMap sg f.address = some a → f.kind = kindSample → parseSample a f.payload = some m →
        t.segPorts[sg] = ⟨{ s.segPorts[sg].port with
            link := .up, silence := 0, seen := true
            bad := if s.paths.sample[sg].length < 8 then s.segPorts[sg].port.bad else satInc s.segPorts[sg].port.bad },
            s.segPorts[sg].unmapped⟩ ∧
          t.paths = if s.paths.sample[sg].length < 8 then
            { s.paths with sample := upd s.paths.sample sg (· ++ [m]) } else s.paths) ∧
      (∀ a m, s.stationMap sg f.address = some a → f.kind = kindEcho → parseEcho a f.payload = some m →
        t.segPorts[sg] = ⟨{ s.segPorts[sg].port with
            link := .up, silence := 0, seen := true
            bad := if s.paths.echo[sg].length < 8 then s.segPorts[sg].port.bad else satInc s.segPorts[sg].port.bad },
            s.segPorts[sg].unmapped⟩ ∧
          t.paths = if s.paths.echo[sg].length < 8 then
            { s.paths with echo := upd s.paths.echo sg (· ++ [m]) } else s.paths))

/-- The order of a segment arbiter's sources at the end of a transmission (R52 to R55), while no record shows an error
and no other arbiter could choose. -/
def Obligations.EgressServesStopsFirst : Prop :=
  ∀ (s : State) (sg : SegIx), s.Sound → s.othersQuiet sg →
    ∃ t, exec (.segmentTransmissionEnd sg) s = .next t ∧ SameButEgress s t ∧
      ((∀ a ∈ s.egress.stopSet[sg], isStation s.tables.axes[a].held.station = true) → s.egress.stopSet[sg] ≠ [] →
        ∃ a ∈ s.egress.stopSet[sg], t.egress.tx[sg] = some (stopFrame s.tables.axes[a].held.station) ∧
          t.egress.stopSet[sg] = s.egress.stopSet[sg].filter (· != a) ∧ t.egress.beacon = s.egress.beacon ∧
          t.egress.setpoints = s.egress.setpoints ∧ t.egress.checkSlot = s.egress.checkSlot) ∧
      (s.egress.stopSet[sg] = [] → s.egress.beacon[sg] = true →
        t.egress.tx[sg] = some (beaconFrame s.timer.cycle s.timer.period) ∧ t.egress.beacon[sg] = false ∧
          t.egress.setpoints = s.egress.setpoints ∧ t.egress.checkSlot = s.egress.checkSlot) ∧
      (∀ q l, s.egress.stopSet[sg] = [] → s.egress.beacon[sg] = false → s.egress.setpoints[sg] = q :: l →
        s.tables.axes[q.axis].poisoned = false →
        t.egress.tx[sg] = some (setpointFrame s.tables.axes[q.axis].held.station q.mode
          (byPolarity s.tables.axes[q.axis].held.mirrored q.target) q.cap) ∧
          t.egress.setpoints[sg] = l ∧ t.egress.checkSlot = s.egress.checkSlot) ∧
      (∀ c, s.egress.stopSet[sg] = [] → s.egress.beacon[sg] = false → s.egress.setpoints[sg] = [] →
        s.egress.checkSlot[sg] = some c → s.tables.axes[c.axis].poisoned = false →
        t.egress.tx[sg] = some (checkFrame s.tables.axes[c.axis].held.station c.word) ∧
          t.egress.checkSlot[sg] = none ∧ t.checks[sg] = { s.checks[sg] with sent := true }) ∧
      (s.egress.waiting sg = false → t = { s with egress := { s.egress with tx := s.egress.tx.set sg none } })

/-- The end of a CL transmission (R155, R158): the first phase at or after the pointer whose source has a frame waiting
is taken, and the pointer moves past it; a pending load is made before phase 0 is examined, and on idle; with nothing
waiting the transmitter is IDLE. That the selection which makes a load at phase 0 examines the new table from phase 0
through phase 31, the phases at or past the old pointer included, is log 9, the model's reading. -/
def Obligations.ScheduleTakesFirstWaitingPhase : Prop :=
  (∀ (c : ClSide) (k : Fin 32), (c.takePhase k).schedule = { c.schedule with pointer := k + 1 } ∧
    (∀ r rs, c.schedule.live[k] = .reply → c.replies = r :: rs →
      c.takePhase k = { c with replies := rs, tx := some r.frames, schedule := (c.takePhase k).schedule }) ∧
    (∀ r rs, c.schedule.live[k] = .report → c.reports = r :: rs →
      c.takePhase k = { c with reports := rs, tx := some [r.frame], schedule := (c.takePhase k).schedule }) ∧
    (∀ n e es, c.schedule.live[k] = .seg n → c.forward[n] = e :: es →
      c.takePhase k = { c with
        forward := c.forward.set n es, tx := some [forwardFrame e], schedule := (c.takePhase k).schedule })) ∧
  (∀ s : State, s.cl.tx.isSome = true → s.cl.schedule.loadPending = false →
    (s.cl.anyWaiting = false → exec .clTransmissionEnd s = .next { s with cl := { s.cl with tx := none } }) ∧
    (s.cl.anyWaiting = true → missingSource s.cl.schedule.live = none →
      ∃ k : Fin 32, exec .clTransmissionEnd s = .next { s with cl := ({ s.cl with tx := none }).takePhase k } ∧
        s.cl.waiting s.cl.schedule.live[k] = true ∧
        ∀ j : Fin 32, (j - s.cl.schedule.pointer).val < (k - s.cl.schedule.pointer).val →
          s.cl.waiting s.cl.schedule.live[j] = false)) ∧
  ∀ (s : State) (way : LoadWay) (k₀ : Fin 32) (loaded : ClSide), s.cl.tx.isSome = true →
    s.cl.schedule.loadPending = true → missingSource s.cl.schedule.shadow = none →
    loaded = ({ s.cl with
        tx := none
        schedule := { s.cl.schedule with live := s.cl.schedule.shadow, loadPending := false, pointer := k₀ }
      } : ClSide).queueReport s.postContext (.scheduleLoaded (phaseCounts s.cl.schedule.shadow) way) →
    (s.cl.anyWaiting = false → way = .idle → k₀ = 0 →
      (reportEnabled s.settings.reportMask .scheduleLoaded = false →
        exec .clTransmissionEnd s = .next { s with cl := loaded }) ∧
      (reportEnabled s.settings.reportMask .scheduleLoaded = true → ∃ k : Fin 32,
        exec .clTransmissionEnd s = .next { s with cl := loaded.takePhase k } ∧
        loaded.waiting loaded.schedule.live[k] = true ∧
        ∀ j < k, loaded.waiting loaded.schedule.live[j] = false)) ∧
    (s.cl.anyWaiting = true → s.cl.schedule.pointer ≠ 0 →
      (∃ j : Fin 32, s.cl.schedule.pointer ≤ j ∧ s.cl.waiting s.cl.schedule.live[j] = true) →
      ∃ k : Fin 32, exec .clTransmissionEnd s = .next { s with cl := ({ s.cl with tx := none }).takePhase k } ∧
        s.cl.schedule.pointer ≤ k ∧ s.cl.waiting s.cl.schedule.live[k] = true ∧
        ∀ j < k, s.cl.schedule.pointer ≤ j → s.cl.waiting s.cl.schedule.live[j] = false) ∧
    (s.cl.anyWaiting = true → way = .phase0 → k₀ = s.cl.schedule.pointer →
      (s.cl.schedule.pointer = 0 ∨
        ∀ j : Fin 32, s.cl.schedule.pointer ≤ j → s.cl.waiting s.cl.schedule.live[j] = false) →
      ∃ k : Fin 32, exec .clTransmissionEnd s = .next { s with cl := loaded.takePhase k } ∧
        loaded.waiting loaded.schedule.live[k] = true ∧ ∀ j < k, loaded.waiting loaded.schedule.live[j] = false)

/-- A report is placed by the state of the report queue (R151, R152): for a TRIP on a full queue the newest report that
is not TRIP leaves, and the one then newest counts it. -/
def Obligations.FullReportQueueKeepsTrips : Prop :=
  ∀ (ctx : PostContext) (b : ReportBody) (c : ClSide),
    (reportEnabled ctx.mask b.kind = false → c.queueReport ctx b = c) ∧
    (reportEnabled ctx.mask b.kind = true → c.reports.length < 32 →
      c.queueReport ctx b = { c with reports := c.reports ++ [⟨b, ctx.cycle, ctx.stamp, 0⟩] }) ∧
    (reportEnabled ctx.mask b.kind = true → c.reports.length = 32 →
      (b.kind ≠ .trip ∨ c.reports.all Report.isTrip = true →
        c.queueReport ctx b =
          { c with reports := bumpNewest c.reports, overrunTotal := satInc c.overrunTotal }) ∧
      (b.kind = .trip → c.reports.all Report.isTrip = false →
        c.queueReport ctx b = { c with
          reports := bumpNewest (dropNewestOther c.reports) ++ [⟨b, ctx.cycle, ctx.stamp, 0⟩]
          overrunTotal := satInc c.overrunTotal } ∧
        (c.queueReport ctx b).reports.length = 32 ∧
        (c.queueReport ctx b).reports.getLast? = some ⟨b, ctx.cycle, ctx.stamp, 0⟩ ∧
        (c.queueReport ctx b).reports.countP Report.isTrip = c.reports.countP Report.isTrip + 1)) ∧
    (∀ (older newer : List Report) (r : Report), r.isTrip = false → (∀ x ∈ newer, x.isTrip = true) →
      dropNewestOther (older ++ r :: newer) = older ++ newer) ∧
    ∀ (older : List Report) (r : Report), bumpNewest (older ++ [r]) = older ++ [{ r with overrun := satInc r.overrun }]

/-! ## Requests -/

/-- One request is taken, and one reply is formed for it with its tag and code (R146). -/
def Obligations.EachRequestGetsOneReply : Prop :=
  ∀ (s : State) (q : Request) (d : Demand), s.Presents q d → d ≠ .unknown → d ≠ .softReset →
    ∃ t u status parts, exec d.command s = .next t ∧ Answered q u status parts t ∧
      u.requests = s.requests.tail ∧ u.cl.replies.length ≤ s.cl.replies.length

/-- Log 7, the model's choice: a row that is not for the head request, and any row while no request can be taken,
changes nothing. Log 20: none can while blocks have yet to take a soft reset, which SOFT_RESET then moves on. -/
def Obligations.OtherRowsLeaveRequestWaiting : Prop :=
  ∀ (s : State) (c : Instr), takesRequest c →
    (∀ q, s.Presents q q.demand → q.demand.command ≠ c → exec c s = .next s) ∧
    (s.resets = [] → 8 ≤ s.cl.replies.length ∨ s.requests = [] → exec c s = .next s) ∧
    (s.resets ≠ [] → c ≠ .softReset → exec c s = .next s)

/-- An index out of range is refused BAD_INDEX; a write naming the ZONE table and an unknown request are refused
BAD_REQUEST; none changes anything else. The code byte of the reply to a request without one is a free value (log 17). That
a READ_TRIP_RECORD refused so carries no part byte is log 16, the model's choice. -/
def Obligations.UnfitRequestsAreRefused : Prop :=
  ∀ (s : State) (q : Request) (d : Demand), s.Presents q d →
    (d.badIndex = true → ∃ t, exec d.command s = .next t ∧ Answered q s.popRequest .badIndex [[]] t) ∧
    (d = .writeZone → ∃ t, exec .writeEntryZone s = .next t ∧ Answered q s.popRequest .badRequest [[]] t) ∧
    (d = .unknown → ∃ t, exec .unknownRequest s = .next t ∧
      ((∃ code, q.code = some code ∧ Answered q s.popRequest .badRequest [[]] t) ∨
        (q.code = none ∧ ∃ code : Byte,
          t = ({ s.popRequest with freeCount := s.freeCount + 1 }.pushReply
            ⟨q.tag, code, .badRequest, s.timer.cycle, [[]]⟩).settle)))

/-- READ_ENTRY of the nine tables (R16, R72, R82, R90, R123, R147, R156, R168): what is returned, and the one change a
read can make, the check of the check bits. Which extents a read of ZONE checks, for which block, is log 11, and the bytes
of an unoccupied zone are log 16: the model's reading. -/
def Obligations.ReadsReturnContents : Prop :=
  ∀ (s : State) (q : Request),
    (∀ a : AxisIx, s.Presents q (.readAxis (natByte a)) → ∃ t, exec .readEntryAxis s = .next t ∧
      Answered q (s.popRequest.touch .management (.axis a)) .ok
        [(s.popRequest.touch .management (.axis a)).tables.axes[a].held.bytes ++
          axisDerived (s.popRequest.touch .management (.axis a)) a] t) ∧
    (∀ g : GroupIx, s.Presents q (.readGroup (natByte g)) → ∃ t, exec .readEntryGroup s = .next t ∧
      Answered q (s.popRequest.touch .management (.group g)) .ok
        [(s.popRequest.touch .management (.group g)).tables.groups[g].held.bytes ++
          groupDerived (s.popRequest.touch .management (.group g)) g] t) ∧
    (∀ p : PairIx, s.Presents q (.readPair (natByte p)) → ∃ t, exec .readEntryPair s = .next t ∧
      Answered q (s.popRequest.touch .management (.pair p)) .ok
        [(s.popRequest.touch .management (.pair p)).tables.pairs[p].held.bytes ++
          pairDerived (s.popRequest.touch .management (.pair p)) p] t) ∧
    (∀ x : ExtentIx, s.Presents q (.readExtent (natByte x)) → ∃ t, exec .readEntryExtent s = .next t ∧
      Answered q (s.popRequest.touch .management (.extent x)) .ok
        [(s.popRequest.touch .management (.extent x)).tables.extents[x].held.bytes ++
          [boolByte (s.popRequest.touch .management (.extent x)).tables.extents[x].poisoned]] t) ∧
    (∀ z : ZoneIx, s.Presents q (.readZone (natByte z)) → ∃ t, exec .readEntryZone s = .next t ∧
      (s.zones[z] = none → Answered q s.popRequest .ok [[0xFF#8, 0, 0xFF#8, 0, 0, 0, 0, 0xFF#8]] t) ∧
      (∀ g, s.zones[z] = some g →
        Answered q (s.popRequest.readMemberExtents .zone g) .ok
          [match (s.popRequest.readMemberExtents .zone g).occupant z g with
            | some o => [natByte g, 1, natByte o.axis] ++ bytes32 o.position ++ [natByte o.extent]
            | none => [natByte g, 0, 0xFF#8, 0, 0, 0, 0, 0xFF#8]] t)) ∧
    (∀ a : AxisIx, s.Presents q (.readWaypoint (natByte a)) → ∃ t, exec .readEntryWaypoint s = .next t ∧
      Answered q s.popRequest .ok [waypointBytes s.waypoints[a].live ++ waypointBytes s.waypoints[a].staged] t) ∧
    (∀ l : LineIx, s.Presents q (.readInput (natByte l)) → ∃ t, exec .readEntryInput s = .next t ∧
      Answered q s.popRequest .ok [[levelCode s.inputs[l].active, s.inputs[l].groups, levelCode s.inputs[l].held,
        boolByte (s.inputs[l].held == s.inputs[l].active)]] t) ∧
    (s.Presents q (.readSettings 0) → ∃ t, exec .readEntrySettings s = .next t ∧
      Answered q s.popRequest .ok [s.settings.bytes] t) ∧
    (∀ k : Fin 32, s.Presents q (.readSchedule (natByte k)) → ∃ t, exec .readEntrySchedule s = .next t ∧
      Answered q s.popRequest .ok [[s.cl.schedule.shadow[k].code, s.cl.schedule.live[k].code,
        boolByte s.cl.schedule.loadPending, natByte s.cl.schedule.pointer]] t)

/-! ## Writing the tables -/

/-- The checks of an axis write and their order (R7), while no record shows an error. -/
def Obligations.AxisWriteIsChecked : Prop :=
  ∀ (s : State) (q : Request) (a : AxisIx) (f : AxisFields), s.Presents q (.writeAxis (natByte a) f) → s.Sound →
    ∃ t, exec .writeEntryAxis s = .next t ∧
      if s.lockedGroup (s.groupOf a) then Answered q s.popRequest .locked [[]] t
      else if s.groupCreeps (s.groupOf a) then Answered q s.popRequest .busy [[]] t
      else if f.valid = false ∧ (s.groupOf a).isSome then Answered q s.popRequest .referenced [[]] t
      else if f.valid = true ∧ f.inRange = false then Answered q s.popRequest .badValue [[]] t
      else if f.valid = true ∧ s.stationTaken a f = true then Answered q s.popRequest .conflict [[]] t
      else Answered q (s.popRequest.storeAxis a f) .ok [[]] t

/-- What an accepted axis write does (R8), with the report of a link check that it ends (R130, R131), and with the frames
it overtakes marked (R3; log 19). -/
def Obligations.AxisWriteClearsTheRecord : Prop :=
  ∀ (s : State) (a : AxisIx) (f : AxisFields),
    s.storeAxis a f = { s with
      tables := { s.tables with
        axes := s.tables.axes.set a ⟨if f.valid then f else AxisFields.default, .clean, false⟩ }
      axisRec := (s.storeAxis a f).axisRec, checks := (s.storeAxis a f).checks
      egress := { s.egress with
        setpoints := (s.storeAxis a f).egress.setpoints, checkSlot := (s.storeAxis a f).egress.checkSlot }
      cl := (s.storeAxis a f).cl
      paths := if s.tables.axes[a].held.moves f then s.paths.overtake a else s.paths } ∧
    (s.storeAxis a f).axisRec = upd s.axisRec a (fun r => { r with
      checked := false, latest := none, arrived := false, intrusion := false, missCount := 0, lost := false,
      refusalReported := false }) ∧
    (∀ sg : SegIx, (s.storeAxis a f).checks[sg] =
      if s.checks[sg].inFlight = true ∧ s.checks[sg].axis = a then { s.checks[sg] with inFlight := false }
      else s.checks[sg]) ∧
    (∀ sg : SegIx, (s.storeAxis a f).egress.checkSlot[sg] =
      if s.checks[sg].inFlight = true ∧ s.checks[sg].axis = a ∧ s.checks[sg].sent = false then none
      else s.egress.checkSlot[sg]) ∧
    (∀ sg : SegIx, (s.storeAxis a f).egress.setpoints[sg] = s.egress.setpoints[sg].filter fun e => e.axis != a) ∧
    (s.storeAxis a f).cl = s.cl.withoutAxis s.postContext s.checks a ∧
    ∀ sg : SegIx, ∀ e ∈ (s.storeAxis a f).cl.forward[sg], e.axis ≠ a

/-- The checks of a group write and their order (R11), while no record shows an error, and its effect (R12): the record,
the membership index, the verdict, and nothing else. -/
def Obligations.GroupWriteIsChecked : Prop :=
  ∀ (s : State) (q : Request) (g : GroupIx) (f : GroupFields), s.Presents q (.writeGroup (natByte g) f) → s.Sound →
    ∃ t, exec .writeEntryGroup s = .next t ∧
      (if s.permitState g ≠ .disarmed then Answered q s.popRequest .locked [[]] t
      else if s.creep[g].state = .running then Answered q s.popRequest .busy [[]] t
      else if f.valid = false ∧
          ((∃ z : ZoneIx, s.zones[z] = some g) ∨ ∃ a ∈ s.members g, (s.pairOf a).isSome) then
        Answered q s.popRequest .referenced [[]] t
      else if f.valid = true ∧ (f.inRange g = false ∨
          ∃ a ∈ f.members.filterMap axisOfByte, s.usableAxis a = false) then
        Answered q s.popRequest .badValue [[]] t
      else if f.valid = true ∧ ∃ a ∈ f.members.filterMap axisOfByte, ∃ h, s.groupOf a = some h ∧ h ≠ g then
        Answered q s.popRequest .conflict [[]] t
      else if f.valid = true ∧ ∃ a ∈ s.members g, a ∉ f.members.filterMap axisOfByte ∧ (s.pairOf a).isSome then
        Answered q s.popRequest .referenced [[]] t
      else Answered q (s.popRequest.storeGroup g f) .ok [[]] t) ∧
      (s.storeGroup g f).tables.groups =
        s.tables.groups.set g ⟨if f.valid then f else GroupFields.default, .clean, false⟩ ∧
      (∀ a : AxisIx, (s.storeGroup g f).pairOf a = s.pairOf a ∧
        (s.storeGroup g f).groupOf a =
          if f.valid = true ∧ a ∈ f.members.filterMap axisOfByte then some g
          else if s.groupOf a = some g then none else s.groupOf a) ∧
      (s.storeGroup g f).creep = upd s.creep g (fun r => { r with verdict := .unknown }) ∧
      s.storeGroup g f = { s with
        tables := { s.tables with
          groups := (s.storeGroup g f).tables.groups, index := (s.storeGroup g f).tables.index }
        creep := (s.storeGroup g f).creep }

/-- The checks of a pair write, their order, and its effect (R14, R15), while no record shows an error. -/
def Obligations.PairWriteIsChecked : Prop :=
  ∀ (s : State) (q : Request) (p : PairIx) (f : PairFields), s.Presents q (.writePair (natByte p) f) → s.Sound →
    ∃ t, exec .writeEntryPair s = .next t ∧
      (if s.lockedGroup (s.pairGroup p) = true ∨
          (f.valid = true ∧ ∃ a, axisOfByte f.lead = some a ∧ s.lockedGroup (s.groupOf a) = true) then
        Answered q s.popRequest .locked [[]] t
      else if f.valid = false then Answered q (s.popRequest.storePair p f) .ok [[]] t
      else match axisOfByte f.lead, axisOfByte f.follow with
        | some a, some b =>
          if a = b ∨ s.usableAxis a = false ∨ s.usableAxis b = false ∨ s.groupOf a = none ∨
              s.groupOf a ≠ s.groupOf b ∨ f.alarmLimit = 0 ∨ f.tripLimit.toNat ≤ f.alarmLimit.toNat then
            Answered q s.popRequest .badValue [[]] t
          else if (∃ k, s.pairOf a = some k ∧ k ≠ p) ∨ ∃ k, s.pairOf b = some k ∧ k ≠ p then
            Answered q s.popRequest .conflict [[]] t
          else Answered q (s.popRequest.storePair p f) .ok [[]] t
        | _, _ => Answered q s.popRequest .badValue [[]] t) ∧
      (s.storePair p f).tables.pairs =
        s.tables.pairs.set p ⟨if f.valid then f else PairFields.default, .clean, false⟩ ∧
      (s.storePair p f).pairRec = s.pairRec.set p ⟨.normal, none⟩ ∧
      s.storePair p f = { s with
        tables := { s.tables with pairs := (s.storePair p f).tables.pairs, index := (s.storePair p f).tables.index }
        pairRec := (s.storePair p f).pairRec } ∧
      (∀ a : AxisIx, (s.storePair p f).groupOf a = s.groupOf a ∧
        (s.storePair p f).pairOf a =
          if f.valid = true ∧ (f.lead = natByte a ∨ f.follow = natByte a) then some p
          else if s.pairOf a = some p then none else s.pairOf a)

/-- The checks of an extent write, their order, and its effect (R82), while no record shows an error. -/
def Obligations.ExtentWriteIsChecked : Prop :=
  ∀ (s : State) (q : Request) (x : ExtentIx) (f : ExtentFields), s.Presents q (.writeExtent (natByte x) f) →
    s.Sound → ∃ t, exec .writeEntryExtent s = .next t ∧
      if ((s.tables.extents[x].held.valid = true ∨ s.tables.extents[x].poisoned = true) ∧
            s.lockedAxis s.tables.extents[x].held.axis = true) ∨
          (f.valid = true ∧ s.lockedAxis f.axis = true) then Answered q s.popRequest .locked [[]] t
      else if f.valid = true ∧ (64 ≤ f.axis.toNat ∨ 16 ≤ f.zone.toNat ∨ f.high.toInt < f.low.toInt) then
        Answered q s.popRequest .badValue [[]] t
      else Answered q { s.popRequest with tables := { s.tables with
        extents := s.tables.extents.set x ⟨if f.valid then f else ExtentFields.default, .clean, false⟩ } } .ok [[]] t

/-- Writes of a way-point and of an input map entry (R72, R123, R124). A write of an input map entry evaluates the line under
the new entry: an INPUT request to each mapped group that is not TRIPPED, and to no other (R124). -/
def Obligations.WaypointAndInputWrites : Prop :=
  ∀ (s : State) (q : Request),
    (∀ (a : AxisIx) w, s.Presents q (.writeWaypoint (natByte a) w) → ∃ t, exec .writeEntryWaypoint s = .next t ∧
      (w = none → Answered q s.popRequest .badValue [[]] t) ∧
      (w = some none → Answered q { s.popRequest with
        waypoints := s.waypoints.set a ⟨s.waypoints[a].live, none⟩ } .ok [[]] t) ∧
      (∀ v, w = some (some v) → Answered q { s.popRequest with
        waypoints := s.waypoints.set a (if s.waypoints[a].live = none then ⟨some v, none⟩
          else ⟨s.waypoints[a].live, some v⟩) } .ok [[]] t)) ∧
    (∀ (l : LineIx) level groups, s.Presents q (.writeInput (natByte l) level groups) →
      ∃ t, exec .writeEntryInput s = .next t ∧
        (2 ≤ level.toNat → Answered q s.popRequest .badValue [[]] t) ∧
        (∀ v, levelOfByte level = some v → Answered q
          { s.popRequest with
            inputs := s.inputs.set l ⟨s.inputs[l].held, v, groups⟩
            inFlight := s.inFlight ++
              (if s.inputs[l].held = v then
                ((groupsOf groups).filter fun g => s.permitState g != .tripped).map fun g =>
                  (TripSender.tripUnit, ⟨g, ⟨.input, .line l⟩, none⟩)
              else []) } .ok [[]] t))

/-- The checks of a settings write and their order (R22), and its effect (R147), while no record shows an error. -/
def Obligations.SettingsWriteIsChecked : Prop :=
  ∀ (s : State) (q : Request) (f : Settings), s.Presents q (.writeSettings 0 f) → s.Sound →
    ∃ t, exec .writeEntrySettings s = .next t ∧
      if f.cyclePeriod.toNat < 500 ∨ 20000 < f.cyclePeriod.toNat ∨ f.clSilence = 0 ∨ f.segSilence = 0 ∨
          8 < f.scrubRate.toNat then Answered q s.popRequest .badValue [[]] t
      else if f.cyclePeriod ≠ s.settings.cyclePeriod ∧
          ∃ g : GroupIx, s.tables.groups[g].held.valid = true ∧ s.permitState g ≠ .disarmed then
        Answered q s.popRequest .notDisarmed [[]] t
      else Answered q { s.popRequest with settings := f } .ok [[]] t

/-- The shadow table (R156). -/
def Obligations.ShadowTableIsWrittenAndRead : Prop :=
  (∀ (s : State) (q : Request) (i source : Byte), s.Presents q (.writeSchedule i source) →
    ∃ t, exec .writeEntrySchedule s = .next t ∧
      (32 ≤ i.toNat → Answered q s.popRequest .badIndex [[]] t) ∧
      (∀ k : Fin 32, i = natByte k →
        if s.cl.schedule.loadPending = true then Answered q s.popRequest .busy [[]] t
        else match Source.ofByte source with
          | none => Answered q s.popRequest .badValue [[]] t
          | some src => Answered q { s.popRequest with cl := { s.cl with schedule := { s.cl.schedule with
              shadow := s.cl.schedule.shadow.set k src } } } .ok [[]] t)) ∧
  (∀ (s : State) (q : Request) (i : Byte), s.Presents q (.readSchedule i) →
    ∃ t, exec .readEntrySchedule s = .next t ∧
      (32 ≤ i.toNat → Answered q s.popRequest .badIndex [[]] t) ∧
      (∀ k : Fin 32, i = natByte k → Answered q s.popRequest .ok [[s.cl.schedule.shadow[k].code,
        s.cl.schedule.live[k].code, boolByte s.cl.schedule.loadPending, natByte s.cl.schedule.pointer]] t)) ∧
  (∀ k : Fin 32, Schedule.defaultTable[k] =
    if k.val ∈ [0, 8, 16, 24] then .reply
    else if k.val ∈ [4, 12, 20, 28] then .report
    else if k.val ∈ [1, 6, 11, 17, 22, 27] then .seg 0
    else if k.val ∈ [2, 7, 13, 18, 23, 29] then .seg 1
    else if k.val ∈ [3, 9, 14, 19, 25, 30] then .seg 2
    else .seg 3) ∧
  State.reset.cl.schedule.live = Schedule.defaultTable ∧ State.reset.cl.schedule.shadow = Schedule.defaultTable

/-! ## Permits and trips -/

/-- The keys by the state of the permit (R93, R95, R96), arming apart. That a K-RUN whose own read of the group entry trips
the group is refused TRIPPED is log 11, the model's choice (R99 gives that status for PARK alone). -/
def Obligations.KeysFollowTable : Prop :=
  ∀ (s : State) (q : Request) (g : GroupIx),
    (s.Presents q (.keyArm (natByte g)) → s.permitState g ≠ .disarmed → ∃ t, exec .permitKeyKArm s = .next t ∧
      (s.permitState g = .tripped → Answered q s.popRequest .tripped [permitData s g []] t) ∧
      (s.permitState g = .primed → Answered q s.popRequest .ok [permitData s g []] t) ∧
      (s.permitState g = .live → s.permits[g].halfDone = false →
        Answered q (s.popRequest.modPermit g fun p => { p with halfDone := true }) .ok [permitData s g []] t) ∧
      (s.permitState g = .live → s.permits[g].halfDone = true → ∃ u,
        u = s.popRequest.trip ⟨g, ⟨.keySequence, .none⟩, none⟩ ∧ u.permitState g = .tripped ∧
          Answered q u .badKey [permitData u g []] t)) ∧
    (s.Presents q (.keyRun (natByte g)) → ∃ t u, exec .permitKeyKRun s = .next t ∧
      u = s.popRequest.touch .permit (.group g) ∧
      (s.permitState g = .tripped → Answered q s.popRequest .tripped [permitData s g []] t) ∧
      (s.permitState g = .disarmed → Answered q s.popRequest .badKey [permitData s g []] t) ∧
      (s.permitState g = .primed → u.permitState g = .primed → ∃ v,
        v = u.changePermit g .live u.tables.groups[g].held.serviceInterval .run ∧
          v.permits = upd u.permits g (fun p => { p with
            state := .live, lapse := u.tables.groups[g].held.serviceInterval, halfDone := false }) ∧
          v = { u with
            permits := v.permits, brk := u.brk.set g true
            cl := u.cl.post s.postContext
              (.permitChange g .primed .live .run u.tables.groups[g].held.serviceInterval) } ∧
          Answered q v .ok [permitData v g []] t) ∧
      (s.permitState g = .live → s.permits[g].halfDone = true → u.permitState g = .live → ∃ v,
        v = (u.modPermit g fun p => { p with lapse := u.tables.groups[g].held.serviceInterval, halfDone := false }) ∧
          Answered q v .ok [permitData v g []] t) ∧
      (s.permitState g = .primed ∨ (s.permitState g = .live ∧ s.permits[g].halfDone = true) →
        u.permitState g = .tripped → Answered q u .tripped [permitData u g []] t) ∧
      (s.permitState g = .live → s.permits[g].halfDone = false → ∃ v,
        v = s.popRequest.trip ⟨g, ⟨.keySequence, .none⟩, none⟩ ∧ v.permitState g = .tripped ∧
          Answered q v .badKey [permitData v g []] t)) ∧
    (s.Presents q (.keyOther (natByte g)) → ∃ t, exec .permitKeyOther s = .next t ∧
      (s.permitState g = .tripped → Answered q s.popRequest .tripped [permitData s g []] t) ∧
      (s.permitState g = .disarmed ∨ s.permitState g = .primed →
        Answered q s.popRequest .badKey [permitData s g []] t) ∧
      (s.permitState g = .live → ∃ u, u = s.popRequest.trip ⟨g, ⟨.keySequence, .none⟩, none⟩ ∧
        u.permitState g = .tripped ∧ Answered q u .badKey [permitData u g []] t))

/-- K-ARM presented to a DISARMED group: the arming conditions in their order, and PRIMED when all hold (R94), while
no record shows an error. The two bytes that name the first poisoned entry, its type and index, are log 16, the model's
reading. -/
def Obligations.ArmingTestsConditionsInOrder : Prop :=
  ∀ (s : State) (q : Request) (g : GroupIx), s.Presents q (.keyArm (natByte g)) → s.Sound →
    s.permitState g = .disarmed → ∃ t, exec .permitKeyKArm s = .next t ∧
      if s.tables.groups[g].held.valid = false ∧ s.tables.groups[g].poisoned = false then
        Answered q s.popRequest .badIndex [permitData s g []] t
      else match (EntryRef.group g :: s.belongings g).find? s.tables.isPoisoned with
        | some e => Answered q s.popRequest .poisoned [permitData s g (Subject.entry e).bytes] t
        | none => match (s.memberList g).find? fun a => !s.axisRec[a].checked with
          | some a => Answered q s.popRequest .unchecked [permitData s g [natByte a]] t
          | none => match (s.memberList g).find? fun a => s.axisRec[a].lost with
            | some a => Answered q s.popRequest .notAtRest [permitData s g [natByte a]] t
            | none => match s.activeLineFor g with
              | some l => Answered q s.popRequest .inputActive [permitData s g [natByte l]] t
              | none =>
                if s.creep[g].state = .running then Answered q s.popRequest .busy [permitData s g []] t
                else if s.tables.groups[g].held.creepRequired = true ∧ s.creep[g].verdict ≠ .pass then
                  Answered q s.popRequest .creepRequired [permitData s g [s.creep[g].verdict.code]] t
                else ∃ u, u = s.popRequest.changePermit g .primed s.tables.groups[g].held.primeWindow .armed ∧
                  u.permits = upd s.permits g (fun p => { p with
                    state := .primed, lapse := s.tables.groups[g].held.primeWindow, halfDone := false }) ∧
                  u = { s.popRequest with
                    permits := u.permits, brk := s.brk.set g false
                    cl := s.cl.post s.postContext
                      (.permitChange g .disarmed .primed .armed s.tables.groups[g].held.primeWindow) } ∧
                  Answered q u .ok [permitData u g []] t

/-- PARK by the state of the permit (R99), while no record shows an error. Behind a sample whose step 3 has sent the group a
request that is still in flight, it meets a TRIPPED group (R61): the requests of the sample monitor, in its order, are taken
first, up to the last such request. That requests travel as events of their own is log 6, the model's choice. -/
def Obligations.ParkNeedsMembersAtRest : Prop :=
  (∀ r : AxisRecord, r.atRest = true ↔
    ∃ l, r.latest = some l ∧ (r.arrived = true ∨ r.missCount = 0) ∧ l.flags.atRest = true) ∧
  (∀ (g : GroupIx) (w : TripSender) (r : TripRequest), fromSampleTo g (w, r) = true ↔
    w = .sampleMonitor ∧ r.group = g ∧ r.cause.cause ∈ [Cause.driveFault, .overtravel, .overspeed, .zoneIntrusion]) ∧
  (∀ (s : State) (g : GroupIx) (r : TripRequest) (before after : List (TripSender × TripRequest)),
    s.permitState g = .primed ∨ s.permitState g = .live →
    s.inFlight = before ++ (.sampleMonitor, r) :: after → fromSampleTo g (.sampleMonitor, r) = true →
    (∀ p ∈ before, p.1 ≠ .sampleMonitor) → (∀ p ∈ after, fromSampleTo g p = false) →
    s.takeSampled g = ({ s with inFlight := before ++ after } : State).trip r) ∧
  ∀ (s : State) (q : Request) (g : GroupIx), s.Presents q (.park (natByte g)) → s.Sound →
    ∃ t, exec .park s = .next t ∧
      (s.permitState g = .disarmed → Answered q s.popRequest .ok [permitData s g []] t) ∧
      (s.permitState g = .tripped → Answered q s.popRequest .tripped [permitData s g []] t) ∧
      (s.permitState g = .primed ∨ s.permitState g = .live → (∃ p ∈ s.inFlight, fromSampleTo g p = true) →
        ∃ u, u = s.popRequest.takeSampled g ∧ u.permitState g = .tripped ∧ Quiet s.popRequest u ∧
          Answered q u .tripped [permitData u g []] t) ∧
      (s.permitState g = .primed → (∀ p ∈ s.inFlight, fromSampleTo g p = false) →
        ∃ u, u = s.popRequest.changePermit g .disarmed 0 .parked ∧
        u = { s.popRequest with
          permits := u.permits, brk := s.brk.set g false
          cl := s.cl.post s.postContext (.permitChange g .primed .disarmed .parked 0) } ∧
        u.permits = upd s.permits g (fun p => { p with state := .disarmed, lapse := 0, halfDone := false }) ∧
        Answered q u .ok [permitData u g []] t) ∧
      (s.permitState g = .live → (∀ p ∈ s.inFlight, fromSampleTo g p = false) →
        match (s.memberList g).find? fun a => !s.axisRec[a].atRest with
        | some a => Answered q s.popRequest .notAtRest [permitData s g [natByte a]] t
        | none => ∃ u, u = (s.popRequest.purgeGroup g).changePermit g .disarmed 0 .parked ∧
          u.permits = upd s.permits g (fun p => { p with state := .disarmed, lapse := 0, halfDone := false }) ∧
          u = { s.popRequest with
            permits := u.permits, brk := s.brk.set g false
            cl := s.cl.post s.postContext (.permitChange g .live .disarmed .parked 0)
            egress := { s.egress with setpoints := u.egress.setpoints } } ∧
          (∀ sg : SegIx, u.egress.setpoints[sg] = s.egress.setpoints[sg].filter fun e =>
            !(e.mode == .position && s.groupOf e.axis == some g)) ∧
          Answered q u .ok [permitData u g []] t)

/-- CLEAR_TRIP by the state of the permit, its conditions in their order, and its effect (R104, R105, R115), while no
record shows an error. That the members are the written list of an entry that is not poisoned is log 24, and the hold
given as one byte is log 16: the model's reading. -/
def Obligations.ClearTripNeedsHoldLinesAndBrakes : Prop :=
  (∀ r : AxisRecord, r.braked = true ↔ r.lost = false ∧
    ∃ l, r.latest = some l ∧ (r.arrived = true ∨ r.missCount = 0) ∧ l.flags.atRest = true ∧ l.flags.brakeSet = true) ∧
  ∀ (s : State) (q : Request) (g : GroupIx), s.Presents q (.clearTrip (natByte g)) → s.Sound →
    ∃ t, exec .clearTrip s = .next t ∧
      (s.permitState g = .disarmed → Answered q s.popRequest .ok [permitData s g []] t) ∧
      (s.permitState g = .primed ∨ s.permitState g = .live →
        Answered q s.popRequest .badRequest [permitData s g []] t) ∧
      (s.permitState g = .tripped →
        if s.permits[g].age.toNat < tripHoldOf s.tables.groups[g] then
          Answered q s.popRequest .holdTime
            [permitData s g (bytes16 s.permits[g].age ++ [natByte (tripHoldOf s.tables.groups[g])])] t
        else match s.activeLineFor g with
          | some l => Answered q s.popRequest .inputActive [permitData s g [natByte l]] t
          | none => match (s.memberList g).find? fun a => !s.axisRec[a].braked with
            | some a => Answered q s.popRequest .notAtRest [permitData s g [natByte a]] t
            | none => ∃ u, u = s.popRequest.clearAccepted g ∧
              u = { s.popRequest with
                permits := u.permits, brk := s.brk.set g false, creep := u.creep
                cl := s.cl.post s.postContext (.permitChange g .tripped .disarmed .cleared 0)
                egress := { s.egress with stopSet := u.egress.stopSet } } ∧
              u.permits = upd s.permits g (fun p => { p with
                state := .disarmed, lapse := 0, halfDone := false, cause := none, origin := none, age := 0 }) ∧
              u.creep = upd s.creep g (fun r => { r with verdict := .unknown }) ∧
              (∀ sg : SegIx, u.egress.stopSet[sg] =
                s.egress.stopSet[sg].filter fun a => !(s.memberList g).contains a) ∧
              Answered q u .ok [permitData u g []] t)

/-- FORCE_TRIP (R103): the request FORCED is taken in the same event. -/
def Obligations.ForceTripTripsAnyGroup : Prop :=
  ∀ (s : State) (q : Request) (g : GroupIx), s.Presents q (.forceTrip (natByte g)) →
    ∃ t u, exec .forceTrip s = .next t ∧ u = s.popRequest.trip ⟨g, ⟨.forced, .none⟩, none⟩ ∧
      Quiet s.popRequest u ∧ u.permitState g = .tripped ∧
      (s.permitState g = .tripped → u = s.popRequest.modPermit g fun p => { p with further := satInc p.further }) ∧
      (s.permitState g ≠ .tripped → u.permits[g].cause = some ⟨.forced, .none⟩) ∧
      Answered q u .ok [permitData u g []] t

/-- A trip request by the state of its group (R101), as the permit unit takes it from a sender: one that was sent before its
group was TRIPPED, such as INPUT, is a further cause then, and one taken behind a CLEAR_TRIP meets DISARMED (R105). The
requests of a soft reset's evaluation wait until the soft reset's reply has been taken, so that their TRIP reports follow it
on CL (R125). That TRIP_REQUEST takes the sender's oldest request in flight, and none while blocks have yet to take a soft
reset, is log 6, and that it is the requests that wait is log 20, the model's choice. -/
def Obligations.TripRequestFollowsTable : Prop :=
  (∀ (s : State) (r : TripRequest),
    (s.permitState r.group = .disarmed → r.cause.cause.commanded = false → s.trip r = s) ∧
    (s.permitState r.group = .tripped →
      s.trip r = s.modPermit r.group fun p => { p with further := satInc p.further }) ∧
    (s.tripsOn r →
      Quiet s (s.trip r) ∧
        (s.trip r).permitState r.group = .tripped ∧ (s.trip r).permits[r.group].cause = some r.cause ∧
        (s.trip r).permits[r.group].origin = r.origin ∧ (s.trip r).permits[r.group].age = 0 ∧
        (s.trip r).permits[r.group].lapse = 0 ∧ (s.trip r).permits[r.group].halfDone = false ∧
        (s.trip r).brk[r.group] = false)) ∧
  (∀ (s : State) (w : TripSender) (before after : List (TripSender × TripRequest)) (r : TripRequest),
    s.resets = [] → s.inFlight = before ++ (w, r) :: after → (∀ p ∈ before, p.1 ≠ w) →
    (w = .resetEvaluation → ∀ a ∈ s.cl.replies, a.code = 17 → a.status ≠ .ok) →
    exec (.tripRequest w) s = .next ({ s with inFlight := before ++ after }.trip r).settle) ∧
  (∀ (s : State) (w : TripSender), s.resets ≠ [] → exec (.tripRequest w) s = .next s) ∧
  (∀ (s : State) (a : Reply), a ∈ s.cl.replies → a.code = 17 → a.status = .ok →
    exec (.tripRequest .resetEvaluation) s = .next s) ∧
  (∀ c : Cause, c.commanded = true ↔ c = .forced ∨ c = .input ∨ c = .propagated)

/-- What a trip leaves, while no record shows an error: the members owed a STOP, no waiting motion of the group, the
record in the ring, the passing on, and the rest as it was (R110 to R121); the link checks of the members ended, with
their reports (R130, R131), and the trip unit's reports, CREEP_DONE of a run it aborts (R136) and TRIP (R120). The link
checks and the trip unit take the trip in an order the spec leaves open (log 15). That CREEP_DONE carries the trip cause
without its subject is log 18, and that the record's snapshots are the latest samples at the transition is log 6, both the
model's choice. -/
def Obligations.TripStopsTheGroup : Prop :=
  ∀ (s : State) (r : TripRequest), s.Sound → s.tripsOn r →
    (s.trip r).permits = upd s.permits r.group (·.toTripped r) ∧
    (s.trip r).brk = s.brk.set r.group false ∧
    (∀ (sg : SegIx) (a : AxisIx), a ∈ (s.trip r).egress.stopSet[sg] ↔ a ∈ s.egress.stopSet[sg] ∨
      (a ∈ s.memberList r.group ∧ segOfByte s.tables.axes[a].held.segment = some sg)) ∧
    (∀ sg : SegIx, (s.trip r).egress.setpoints[sg] = s.egress.setpoints[sg].filter fun e =>
      !(e.mode == .position && s.groupOf e.axis == some r.group)) ∧
    (s.trip r).ring = s.ring.push (s.tripRecord r (s.permitState r.group) (s.memberList r.group)) ∧
    (s.trip r).inFlight = s.inFlight ++
      (if r.cause.cause = .propagated then [] else (s.propagationTargets r.group).map fun h =>
        (TripSender.tripUnit, ⟨h, ⟨.propagated, .none⟩, some r.group⟩)) ∧
    (∀ g : GroupIx, (s.trip r).creep[g] =
      if g = r.group ∧ s.creep[g].state = .running then { s.creep[g] with state := .aborted, verdict := .unknown }
      else s.creep[g]) ∧
    (∀ sg : SegIx, (s.trip r).checks[sg] =
      if s.checks[sg].inFlight = true ∧ s.groupOf s.checks[sg].axis = some r.group then
        { s.checks[sg] with inFlight := false } else s.checks[sg]) ∧
    (∀ sg : SegIx, (s.trip r).egress.checkSlot[sg] =
      if s.checks[sg].inFlight = true ∧ s.groupOf s.checks[sg].axis = some r.group ∧ s.checks[sg].sent = false then none
      else s.egress.checkSlot[sg]) ∧
    (s.trip r).egress.beacon = s.egress.beacon ∧ (s.trip r).egress.tx = s.egress.tx ∧
    (∃ jobs : List (Option SegIx),
      jobs.Perm (((List.finRange 4).filter fun sg =>
        s.checks[sg].inFlight && s.groupOf s.checks[sg].axis == some r.group).map some ++ [none]) ∧
      (s.trip r).cl = jobs.foldl (fun c job => match job with
        | some sg => c.post s.postContext (.linkCheckDone s.checks[sg].axis .aborted sg s.checks[sg].phase
            s.checks[sg].expected none s.checks[sg].stale)
        | none => (if s.creep[r.group].state = .running then c.post s.postContext (.creepDone r.group
              { s.creep[r.group] with state := .aborted, verdict := .unknown }
              s.tables.groups[r.group].held.creepLimit (some (.trip r.cause.cause))) else c).post s.postContext
            (.trip r.group r.cause r.origin (s.permitState r.group) s.ring.writePtr (s.ring.number + 1)
              (s.memberList r.group).length)) s.cl) ∧
    (s.trip r).tables = s.tables ∧ Quiet s (s.trip r)

/-! ## Zones, link checks and creep runs -/

/-- CLAIM_ZONE (R84) and RELEASE_ZONE (R85), while no record shows an error, and which waiting setpoints a release
removes (R50). -/
def Obligations.ZonesPassThroughFree : Prop :=
  ∀ (s : State) (q : Request) (z : ZoneIx) (g : GroupIx), s.Sound →
    (s.Presents q (.claimZone (natByte z) (natByte g)) → ∃ t, exec .claimZone s = .next t ∧
      if s.tables.groups[g].held.valid = false ∨ s.tables.groups[g].poisoned = true then
        Answered q s.popRequest .badIndex [[]] t
      else match s.zones[z] with
        | some h => if h = g then Answered q s.popRequest .ok [[]] t
          else Answered q s.popRequest .zoneHeld [[natByte h]] t
        | none => Answered q ({ s.popRequest with zones := s.zones.set z (some g) }.post
            (.zoneChange z none (some g) .claim)) .ok [[]] t) ∧
    (s.Presents q (.releaseZone (natByte z) (natByte g)) → ∃ t, exec .releaseZone s = .next t ∧
      if s.zones[z] ≠ some g then Answered q s.popRequest .notOwner [[]] t
      else match s.occupant z g with
        | some o => Answered q s.popRequest .occupied [[natByte o.axis, natByte o.extent]] t
        | none => Answered q (({ s.popRequest with
            zones := s.zones.set z none
            egress := { s.egress with
              setpoints := s.egress.setpoints.map (List.filter fun e => !(s.travelsInto z g e)) } }).post
            (.zoneChange z (some g) none .release)) .ok [[]] t) ∧
    ∀ e : SetpointEntry, s.travelsInto z g e = true ↔
      e.mode = .position ∧ s.groupOf e.axis = some g ∧ ∃ x : ExtentIx, s.liveExtent x = true ∧
        s.extentAxis x = some e.axis ∧ s.tables.extents[x].held.zone = natByte z ∧
        min e.reference.toInt e.target.toInt ≤ s.tables.extents[x].held.high.toInt ∧
        s.tables.extents[x].held.low.toInt ≤ max e.reference.toInt e.target.toInt

/-- LINK_CHECK: its checks in order, and the check started (R126, R127), while no record shows an error. -/
def Obligations.LinkCheckStartsOppositePhase : Prop :=
  ∀ (s : State) (q : Request) (a : AxisIx), s.Presents q (.linkCheck (natByte a)) → s.Sound →
    ∃ t, exec .linkCheck s = .next t ∧
      if s.lockedGroup (s.groupOf a) = true then Answered q s.popRequest .notDisarmed [[]] t
      else match s.underCheck s.tables.axes[a].held.segment with
        | some b => Answered q s.popRequest .busy [[natByte b]] t
        | none =>
          if s.tables.axes[a].held.valid = false ∧ s.tables.axes[a].poisoned = false then
            Answered q s.popRequest .badIndex [[]] t
          else if s.tables.axes[a].poisoned = true then Answered q s.popRequest .poisoned [[]] t
          else ∀ sg, segOfByte s.tables.axes[a].held.segment = some sg → ∃ u,
            u = s.popRequest.startCheck sg a ∧
            (u.checks[sg].inFlight = true ∧ u.checks[sg].axis = a ∧ u.checks[sg].phase = s.checks[sg].phase.opposite ∧
              u.checks[sg].expected = (if u.checks[sg].phase = .word then s.settings.checkWord
                else ~~~s.settings.checkWord) ∧
              u.checks[sg].sent = false ∧ u.checks[sg].timeout = 0 ∧ u.checks[sg].stale = 0) ∧
            u = { s.popRequest with checks := u.checks, axisRec := u.axisRec, egress := u.egress } ∧
            (∀ k : SegIx, k ≠ sg → u.checks[k] = s.checks[k]) ∧
            u.axisRec = upd s.axisRec a (fun r => { r with checked := false }) ∧
            u.egress = { s.egress with checkSlot := s.egress.checkSlot.set sg (some ⟨a, u.checks[sg].expected⟩) } ∧
            Answered q u .ok [[u.checks[sg].phase.code]] t

/-- An ECHO against the check in flight (R129), with the LINK_CHECK_DONE report of the check it ends and its outcome
(R131), while no record shows an error. -/
def Obligations.EchoIsJudgedAgainstCheck : Prop :=
  ∀ (s : State) (sg : SegIx) (f : EchoFrame) (rest : List EchoFrame), s.paths.echo[sg] = f :: rest → s.Sound →
    ∃ t u : State, exec (.echo sg) s = .next t ∧ t = u.settle ∧ u.paths = { s.paths with echo := s.paths.echo.set sg rest } ∧
      (f.overtaken = true ∨ s.checks[sg].inFlight = false ∨ s.checks[sg].axis ≠ f.axis ∨ s.checks[sg].sent = false →
        u = { s with paths := u.paths }) ∧
      (f.overtaken = false → s.checks[sg].inFlight = true → s.checks[sg].axis = f.axis →
        s.checks[sg].sent = true →
        u = { s with paths := u.paths, checks := u.checks, axisRec := u.axisRec, cl := u.cl } ∧
        (f.word = ~~~s.checks[sg].expected →
          u.checks = upd s.checks sg (fun r => { r with stale := satInc r.stale }) ∧ u.axisRec = s.axisRec ∧
          u.cl = s.cl) ∧
        (f.word ≠ ~~~s.checks[sg].expected →
          u.checks = upd s.checks sg (fun r => { r with inFlight := false }) ∧
          u.cl = s.cl.post s.postContext (.linkCheckDone f.axis
            (if f.word ≠ s.checks[sg].expected then .corrupt
              else if f.mounting = .reversed ↔ s.tables.axes[f.axis].held.mirrored = true then .pass else .polarity)
            sg s.checks[sg].phase s.checks[sg].expected (some (f.word, f.mounting)) s.checks[sg].stale) ∧
          u.axisRec = if f.word = s.checks[sg].expected ∧
              (f.mounting = .reversed ↔ s.tables.axes[f.axis].held.mirrored = true) then
            upd s.axisRec f.axis (fun r => { r with checked := true }) else s.axisRec))

/-- CREEP_START, CREEP_STOP and CREEP_RESULT (R132, R134, R136), the increments a sample gives (R75) and their sum (R133),
the abort of a run (R135), and the CREEP_DONE report of each end (R136), while no record shows an error. -/
def Obligations.CreepRunsAreMeasured : Prop :=
  ∀ (s : State) (g : GroupIx), s.Sound →
    (∀ q d, s.Presents q (.creepStart (natByte g) d) → ∃ t, exec .creepStart s = .next t ∧
      if s.tables.groups[g].held.valid = false ∧ s.tables.groups[g].poisoned = false then
        Answered q s.popRequest .badIndex [[]] t
      else if s.permitState g ≠ .disarmed then Answered q s.popRequest .notDisarmed [[]] t
      else if s.creep[g].state = .running then Answered q s.popRequest .busy [[]] t
      else if s.tables.groups[g].poisoned = true then Answered q s.popRequest .poisoned [[]] t
      else match (s.memberList g).find? fun a => s.axisRec[a].lost with
        | some a => Answered q s.popRequest .notAtRest [[natByte a]] t
        | none => Answered q { s.popRequest with creep := s.creep.set g ⟨.running, d, 0, 0, .unknown⟩ } .ok [[]] t) ∧
    (∀ q, s.Presents q (.creepStop (natByte g)) → ∃ t, exec .creepStop s = .next t ∧
      if s.creep[g].state ≠ .running then Answered q s.popRequest .busy [[]] t
      else if s.creep[g].duration ≠ 0 then Answered q s.popRequest .badRequest [[]] t
      else ∃ u, u = s.popRequest.finishCreep g ∧
        u = { s.popRequest with
          creep := u.creep
          cl := s.cl.post s.postContext
            (.creepDone g u.creep[g] s.tables.groups[g].held.creepLimit none) } ∧
        u.creep = upd s.creep g (fun r => { r with
          state := .done
          verdict := if s.tables.groups[g].poisoned = false ∧
            r.accumulator.toNat ≤ s.tables.groups[g].held.creepLimit.toNat then .pass else .fail }) ∧
        Answered q u .ok [bytes16 u.creep[g].accumulator ++ [u.creep[g].verdict.code]] t) ∧
    (∀ q, s.Presents q (.creepResult (natByte g)) → ∃ t, exec .creepResult s = .next t ∧
      Answered q s.popRequest .ok [s.creep[g].state.code :: bytes16 s.creep[g].duration ++
        bytes16 s.creep[g].elapsed ++ bytes16 s.creep[g].accumulator ++ [s.creep[g].verdict.code]] t) ∧
    (∀ n : Nat, (s.creep[g].state ≠ .running → s.addIncrement g n = s) ∧
      (s.creep[g].state = .running →
        s.addIncrement g n = { s with
          creep := (s.addIncrement g n).creep
          cl := if s.creep[g].accumulator.toNat + n < 65535 then s.cl else s.cl.post s.postContext
            (.creepDone g (s.addIncrement g n).creep[g] s.tables.groups[g].held.creepLimit none) } ∧
        (s.addIncrement g n).creep = upd s.creep g (fun r =>
        if r.accumulator.toNat + n < 65535 then { r with accumulator := BitVec.ofNat 16 (r.accumulator.toNat + n) }
        else { r with accumulator := 65535#16, state := .saturated, verdict := .fail }))) ∧
    (∀ t : Taken, t.group = some g →
      (∀ p, t.previous = some p → s.creep[g].state = .running →
        s.creepStep t = s.addIncrement g (t.sample.position.toInt - p.toInt).natAbs) ∧
      (t.previous = none ∨ s.creep[g].state ≠ .running → s.creepStep t = s)) ∧
    (∀ why : CreepAbort, (s.creep[g].state ≠ .running → s.abortCreep State.trip g why = s) ∧
      (s.creep[g].state = .running → ∃ r : CreepRun, r = { s.creep[g] with state := .aborted, verdict := .unknown } ∧
        s.abortCreep State.trip g why = { s with
          creep := s.creep.set g r
          cl := s.cl.post s.postContext (.creepDone g r s.tables.groups[g].held.creepLimit (some why)) })) ∧
    ∀ t : Taken, t.group = none → s.creepStep t = s

/-! ## Samples -/

/-- A late sample (R26): its only effect, and what keeps and clears the late count. -/
def Obligations.LateSampleOnlyCounts : Prop :=
  (∀ (s : State) (sg : SegIx) (f : SampleFrame) (rest : List SampleFrame), s.paths.sample[sg] = f :: rest →
    f.overtaken = false → f.cycle ≠ s.timer.cycle →
    exec (.sample sg) s = .next (({ s with paths := { s.paths with sample := s.paths.sample.set sg rest } }.modAxis
      f.axis fun r => { r with lateCount := satInc r.lateCount }).settle)) ∧
  (∀ (s : State) (a b : AxisIx) (f : AxisFields), (s.storeAxis b f).axisRec[a].lateCount = s.axisRec[a].lateCount) ∧
  (∀ (s : State) (a : AxisIx), s.clearCounters.axisRec[a].lateCount = 0 ∧ (s.resetBlock .monitor).axisRec[a].lateCount = 0 ∧
    ∀ pins, (s.pinReset pins).axisRec[a].lateCount = 0)

/-- An accepted sample becomes the latest sample in structure coordinates, with its arrival stamp, and goes through steps
3 to 7 in order unless the axis is poisoned (R25, R57 to R60), while no record shows an error; one overtaken by a write
changes nothing (R3). -/
def Obligations.AcceptedSampleIsRecorded : Prop :=
  ∀ (s : State) (sg : SegIx) (f : SampleFrame) (rest : List SampleFrame), s.paths.sample[sg] = f :: rest → s.Sound →
    ∃ t u : State, exec (.sample sg) s = .next t ∧ t = u.settle ∧
      (f.overtaken = true → u = { s with paths := { s.paths with sample := s.paths.sample.set sg rest } }) ∧
      (f.overtaken = false → f.cycle = s.timer.cycle →
        u.axisRec[f.axis].latest = some ⟨byPolarity s.tables.axes[f.axis].held.mirrored f.position,
          byPolarity s.tables.axes[f.axis].held.mirrored f.velocity, f.flags, f.cycle, s.timer.timebase⟩ ∧
        u.axisRec[f.axis].arrived = true ∧ u.axisRec[f.axis].missCount = s.axisRec[f.axis].missCount ∧
        u.axisRec[f.axis].lost = s.axisRec[f.axis].lost ∧
        (∀ b : AxisIx, b ≠ f.axis → u.axisRec[b] = s.axisRec[b]) ∧
        u = { s with
          axisRec := u.axisRec, pairRec := u.pairRec, waypoints := u.waypoints, zones := u.zones, creep := u.creep
          egress := { s.egress with setpoints := u.egress.setpoints }, inFlight := u.inFlight, cl := u.cl
          paths := { s.paths with sample := s.paths.sample.set sg rest } } ∧
        (s.tables.axes[f.axis].poisoned = false → ∃ (l : LatestSample) (k : Taken) (v : State),
          u.axisRec[f.axis].latest = some l ∧
          k = ⟨f.axis, s.groupOf f.axis, (s.groupOf f.axis).map s.permitState,
            s.axisRec[f.axis].latest.map LatestSample.position, l⟩ ∧
          v = { s with
            axisRec := upd s.axisRec f.axis (fun r => { r with latest := some l, arrived := true })
            paths := { s.paths with sample := s.paths.sample.set sg rest } } ∧
          u = ((((v.envelopeStep k s.tables.axes[f.axis].held).skewStep k).waypointStep k).creepStep k).forwardStep k
            s.tables.axes[f.axis].held) ∧
        (s.tables.axes[f.axis].poisoned = true → u = { s with
          axisRec := upd s.axisRec f.axis (fun r => { r with
            latest := some ⟨byPolarity s.tables.axes[f.axis].held.mirrored f.position,
              byPolarity s.tables.axes[f.axis].held.mirrored f.velocity, f.flags, f.cycle, s.timer.timebase⟩
            arrived := true })
          paths := { s.paths with sample := s.paths.sample.set sg rest } }))

/-- Step 3 sends one request for each condition that holds, in order, to a group that was PRIMED or LIVE, keeps the
intrusion flag, and reports an intrusion that begins while the group was neither (R61 to R67), while no record shows an
error. -/
def Obligations.EnvelopeSendsTripRequests : Prop :=
  ∀ (s : State) (t : Taken) (f : AxisFields), s.Sound →
    s.envelopeStep t f = { s with
      axisRec := (s.envelopeStep t f).axisRec, inFlight := (s.envelopeStep t f).inFlight
      cl := match s.intrudedExtent t with
        | some x => if s.axisRec[t.axis].intrusion = false ∧ t.watched = none then
            s.cl.post s.postContext (.zoneIntrusionSeen t.axis x s.tables.extents[x].held.zone t.sample.position t.group
              t.permit) else s.cl
        | none => s.cl } ∧
    (s.envelopeStep t f).axisRec = upd s.axisRec t.axis (fun r => { r with intrusion := (s.intrudedExtent t).isSome }) ∧
    (s.envelopeStep t f).inFlight = s.inFlight ++
      (match t.watched with
        | none => []
        | some g => ((if t.sample.flags.driveFault = true then [Cause.driveFault] else []) ++
            (if t.sample.position.toInt < f.softLow.toInt - f.hardMargin.toNat ∨
              f.softHigh.toInt + f.hardMargin.toNat < t.sample.position.toInt then [Cause.overtravel] else []) ++
            (if f.velocityLimit.toNat < t.sample.velocity.toInt.natAbs then [Cause.overspeed] else []) ++
            (if (s.intrudedExtent t).isSome = true then [Cause.zoneIntrusion] else [])).map fun c =>
          (TripSender.sampleMonitor, ⟨g, ⟨c, .axis t.axis⟩, none⟩))

/-- When a sample evaluates the skew of its axis's pair, while no record shows an error (R68), and what an evaluation
stores, the transition of the skew state with its SKEW_ALARM report, set or clear, and the trip request (R69 to R71). The
report carries the skew as the pair record does, saturated to 32 bits: log 18, the model's reading. -/
def Obligations.SkewFollowsTable : Prop :=
  (∀ (alarm : Word16) (m : Nat),
    (alarm.toNat < m → SkewState.step alarm m .normal = .alarm) ∧
    (m ≤ alarm.toNat → SkewState.step alarm m .normal = .normal) ∧
    (m ≤ alarm.toNat / 2 → SkewState.step alarm m .alarm = .normal) ∧
    (alarm.toNat / 2 < m → SkewState.step alarm m .alarm = .alarm)) ∧
  (∀ (s : State) (t : Taken), s.Sound →
    (s.pairOf t.axis = none → s.skewStep t = s) ∧
    ∀ p, s.pairOf t.axis = some p →
      (s.partnerOf p t.axis = none → s.skewStep t = s) ∧
      ∀ b, s.partnerOf p t.axis = some b → b ≠ t.axis ∧ s.pairOf b = some p ∧
        (∀ l, s.tables.pairs[p].held.valid = true → s.tables.pairs[p].poisoned = false →
          s.tables.axes[t.axis].poisoned = false → s.tables.axes[b].poisoned = false →
          s.axisRec[b].arrived = true → s.axisRec[b].latest = some l →
          s.skewStep t = s.evaluateSkew t p s.tables.pairs[p].held l) ∧
        (s.tables.pairs[p].held.valid = false ∨ s.tables.pairs[p].poisoned = true ∨
          s.tables.axes[t.axis].poisoned = true ∨ s.tables.axes[b].poisoned = true ∨ s.axisRec[b].arrived = false ∨
          s.axisRec[b].latest = none → s.skewStep t = s)) ∧
  ∀ (s : State) (t : Taken) (p : PairIx) (f : PairFields) (partner : LatestSample) (skew : Int),
    skew = (if f.lead = natByte t.axis then t.sample.position.toInt - partner.position.toInt
      else partner.position.toInt - t.sample.position.toInt) →
    (s.evaluateSkew t p f partner).pairRec = s.pairRec.set p
      ⟨SkewState.step f.alarmLimit skew.natAbs s.pairRec[p].skewState, some (saturate32 skew, t.sample.cycle)⟩ ∧
    (s.evaluateSkew t p f partner).inFlight = s.inFlight ++
      (match t.watched with
        | some g => if f.tripLimit.toNat < skew.natAbs then
            [(TripSender.sampleMonitor, ⟨g, ⟨.skew, .pair p⟩, none⟩)] else []
        | none => []) ∧
    s.evaluateSkew t p f partner = { s with
      pairRec := (s.evaluateSkew t p f partner).pairRec, inFlight := (s.evaluateSkew t p f partner).inFlight
      cl := if SkewState.step f.alarmLimit skew.natAbs s.pairRec[p].skewState = s.pairRec[p].skewState then s.cl
        else s.cl.post s.postContext (.skewAlarm p
          (SkewState.step f.alarmLimit skew.natAbs s.pairRec[p].skewState == .alarm) (saturate32 skew) t.sample.cycle) }

/-- The way-point test and the firing (R73, R74): the live slot moves on exactly when it is crossed, the WAYPOINT report
gives the outcome of the action, and an accepted auto-release frees the zone, removes the group's waiting travel into it
and is reported before (R86, R50, R87), while no record shows an error. -/
def Obligations.CrossedWaypointFires : Prop :=
  (∀ w p n : Int, (Sense.rising.crosses w p n = true ↔ p < w ∧ w ≤ n) ∧
    (Sense.falling.crosses w p n = true ↔ w < p ∧ n ≤ w) ∧
    (Sense.either.crosses w p n = true ↔ (p < w ∧ w ≤ n) ∨ (w < p ∧ n ≤ w))) ∧
  ∀ (s : State) (t : Taken),
    (s.waypoints[t.axis].live = none ∨ t.previous = none → s.waypointStep t = s) ∧
    (∀ w p, s.waypoints[t.axis].live = some w → t.previous = some p →
      (w.sense.crosses w.position.toInt p.toInt t.sample.position.toInt = false → s.waypointStep t = s) ∧
      (w.sense.crosses w.position.toInt p.toInt t.sample.position.toInt = true →
        ∃ (moved : Vector WaypointSlots 64) (report : ClSide → Option AutoOutcome → ClSide),
          moved = s.waypoints.set t.axis ⟨s.waypoints[t.axis].staged, none⟩ ∧
          (∀ c outcome, report c outcome = c.post s.postContext
            (.waypoint t.axis w t.sample.position t.sample.cycle t.sample.stamp outcome)) ∧
          (w.action = .none → s.waypointStep t = { s with waypoints := moved, cl := report s.cl none }) ∧
          ∀ z, w.action = .releaseZone z →
            (t.group = none → s.waypointStep t = { s with waypoints := moved, cl := report s.cl (some .noGroup) }) ∧
            ∀ g, t.group = some g → s.Sound →
              (s.zones[z] ≠ some g →
                s.waypointStep t = { s with waypoints := moved, cl := report s.cl (some .notOwner) }) ∧
              (s.zones[z] = some g → s.occupant z g ≠ none →
                s.waypointStep t = { s with waypoints := moved, cl := report s.cl (some .occupied) }) ∧
              (s.zones[z] = some g → s.occupant z g = none → s.waypointStep t = { s with
                waypoints := moved, zones := s.zones.set z none
                egress := { s.egress with
                  setpoints := s.egress.setpoints.map (List.filter fun e => !(s.travelsInto z g e)) }
                cl := report (s.cl.post s.postContext (.zoneChange z (some g) none (.autoRelease t.axis)))
                  (some .released) })))

/-! ## Setpoints -/

/-- HOLD and BRAKE (R35), while no record shows an error; a frame not in the SETPOINT form or addressed to FFh is
discarded and counted (R33) by whichever setpoint command finds it at the head (log 7). Refusing reports once in a run of
refusals (R45), and queueing takes the queue of the segment that the axis entry holds (R34). -/
def Obligations.HoldAndBrakeAreQueued : Prop :=
  (∀ (s : State) (f : SetpointFrame) (rest : List SetpointFrame) (c : Instr), s.paths.setpoint = f :: rest →
    f.parse = none → c = .setpointPosition ∨ c = .setpointHold ∨ c = .setpointBrake →
    exec c s = .next ({ s with paths := { s.paths with setpoint := rest } }.countBad .cl)) ∧
  (∀ (s : State) (f : SetpointFrame) (rest : List SetpointFrame) (a : AxisIx) (p : SetpointPayload),
    s.paths.setpoint = f :: rest → f.parse = some (a, p) → s.Sound → p.mode ≠ .position →
    ∃ t u : State, exec (if p.mode = .hold then .setpointHold else .setpointBrake) s = .next t ∧ t = u.settle ∧
      (s.tables.axes[a].poisoned = true ∨ s.tables.axes[a].held.valid = false →
        u = { s with paths := { s.paths with setpoint := rest } }.refuseSetpoint a .invalidAxis p none) ∧
      (s.tables.axes[a].poisoned = false → s.tables.axes[a].held.valid = true →
        (p.mode = .hold → s.axisRec[a].latest = none →
          u = { s with paths := { s.paths with setpoint := rest } }.refuseSetpoint a .noSample p none) ∧
        (p.mode = .brake ∨ s.axisRec[a].latest.isSome = true →
          u = { s with paths := { s.paths with setpoint := rest } }.enqueue
            ⟨a, p.mode, (s.axisRec[a].latest.map LatestSample.position).getD p.target,
              if s.tables.axes[a].held.velocityLimit.toNat < p.cap.toNat then s.tables.axes[a].held.velocityLimit
              else p.cap, (s.axisRec[a].latest.map LatestSample.position).getD p.target⟩))) ∧
  (∀ (s : State) (a : AxisIx) (reason : RefusalReason) (p : SetpointPayload) (follow : Option AxisIx),
    (s.axisRec[a].refusalReported = true → s.refuseSetpoint a reason p follow = s) ∧
    (s.axisRec[a].refusalReported = false → s.refuseSetpoint a reason p follow = { s with
      cl := s.cl.post s.postContext (.setpointRefused a reason p.mode p.target follow)
      axisRec := upd s.axisRec a (fun r => { r with refusalReported := true }) })) ∧
  ∀ (s : State) (e : SetpointEntry),
    (∀ sg, segOfByte s.tables.axes[e.axis].held.segment = some sg → s.enqueue e = { s with
      egress := { s.egress with setpoints := upd s.egress.setpoints sg (placeSetpoint e) } }) ∧
    (segOfByte s.tables.axes[e.axis].held.segment = none → s.enqueue e = s)

/-- A queue holds one entry for an axis: a new one joins the tail, and one for an axis already there takes its place
(R34, R76). Step 7 of a sample places it in the sample-forward queue of the segment that the axis entry holds, when its
forward samples field is yes (R76). -/
def Obligations.QueueEntriesReplaceInPlace : Prop :=
  (∀ (e : SetpointEntry) (l : List SetpointEntry),
    ((∀ x ∈ l, x.axis ≠ e.axis) → placeSetpoint e l = l ++ [e]) ∧
    ((∃ x ∈ l, x.axis = e.axis) → placeSetpoint e l = l.map fun x => if x.axis = e.axis then e else x)) ∧
  (∀ (e : ForwardEntry) (l : List ForwardEntry),
    ((∀ x ∈ l, x.axis ≠ e.axis) → placeForward e l = l ++ [e]) ∧
    ((∃ x ∈ l, x.axis = e.axis) → placeForward e l = l.map fun x => if x.axis = e.axis then e else x)) ∧
  ∀ (s : State) (t : Taken) (f : AxisFields),
    (f.forward = false → s.forwardStep t f = s) ∧
    ∀ (sg : SegIx) (c : ClSide), f.forward = true → segOfByte f.segment = some sg →
      c = { s.cl with forward := upd s.cl.forward sg (placeForward
        ⟨t.axis, t.sample.cycle, t.sample.position, t.sample.velocity, t.sample.flags⟩) } →
      (s.cl.tx.isSome = true → s.forwardStep t f = { s with cl := c }) ∧
      (s.cl.tx = none → s.forwardStep t f = { s with cl := c.select s.postContext })

/-- A POSITION setpoint: checks 1 to 9 in order, the clamp, and what is queued, for a single axis (R36 to R45) and for a
dual-cast unit of a lead and its follow (R46 to R48), while no record shows an error; and a HOLD in place (R40). For a
unit, that the follow is named in every refusal, those of checks 1 to 3 included, and that window and zone are tested for
the lead before the follow, is log 13, the model's reading. -/
def Obligations.PositionIsJudgedInOrder : Prop :=
  (∀ (s : State) (f : SetpointFrame) (rest : List SetpointFrame) (a : AxisIx) (p : SetpointPayload),
    s.paths.setpoint = f :: rest → f.parse = some (a, p) → p.mode = .position → s.Sound → s.unitFollow a = none →
    ∃ t u s1 : State, exec .setpointPosition s = .next t ∧ t = u.settle ∧
      s1 = { s with paths := { s.paths with setpoint := rest } } ∧
      if s.tables.axes[a].poisoned = false ∧ s.tables.axes[a].held.valid = false then
        u = s1.refuseSetpoint a .invalidAxis p none
      else match s.groupOf a with
        | none => u = s1.refuseSetpoint a .noGroup p none
        | some g =>
          if s.permitState g ≠ .live then u = s1.refuseSetpoint a .notLive p none
          else if (s.touching a).any s.tables.isPoisoned = true then
            u = (s1.holdInPlace a).refuseSetpoint a .poisoned p none
          else if ∃ k, s.pairOf a = some k ∧ s.tables.pairs[k].held.valid = true ∧
              s.tables.pairs[k].held.dualCast = true ∧ s.tables.pairs[k].held.follow = natByte a then
            u = (s1.holdInPlace a).refuseSetpoint a .followerAddressed p none
          else match s.axisRec[a].latest with
            | none => u = s1.refuseSetpoint a .noSample p none
            | some l =>
              if s.axisRec[a].missCount ≠ 0 then u = (s1.holdInPlace a).refuseSetpoint a .noSample p none
              else ∃ (x : Int) (s2 : State),
                x = max (l.position.toInt - s.tables.axes[a].held.maxStep.toNat)
                  (min p.target.toInt (l.position.toInt + s.tables.axes[a].held.maxStep.toNat)) ∧
                s2 = (if x = p.target.toInt then s1
                  else s1.modAxis a fun r => { r with clampCount := satInc r.clampCount }) ∧
                if x < s.tables.axes[a].held.softLow.toInt ∨ s.tables.axes[a].held.softHigh.toInt < x then
                  u = (s2.holdInPlace a).refuseSetpoint a .window p none
                else if s.meetsUnowned x ⟨a, l.position, s.tables.axes[a].held⟩ = true then
                  u = (s2.holdInPlace a).refuseSetpoint a .zone p none
                else u = ((s2.enqueue ⟨a, .position, BitVec.ofInt 32 x,
                  if s.tables.axes[a].held.velocityLimit.toNat < p.cap.toNat then
                    s.tables.axes[a].held.velocityLimit else p.cap, l.position⟩).modAxis a fun r =>
                      { r with refusalReported := false })) ∧
  (∀ (s : State) (f : SetpointFrame) (rest : List SetpointFrame) (a b : AxisIx) (p : SetpointPayload),
    s.paths.setpoint = f :: rest → f.parse = some (a, p) → p.mode = .position → s.Sound → s.unitFollow a = some b →
    ∃ (t u s1 : State) (follow : Option AxisIx), exec .setpointPosition s = .next t ∧ t = u.settle ∧
      s1 = { s with paths := { s.paths with setpoint := rest } } ∧ follow = (if b = a then none else some b) ∧
      if (s.tables.axes[a].poisoned = false ∧ s.tables.axes[a].held.valid = false) ∨
          (s.tables.axes[b].poisoned = false ∧ s.tables.axes[b].held.valid = false) then
        u = s1.refuseSetpoint a .invalidAxis p follow
      else match s.groupOf a, s.groupOf b with
        | some g, some h =>
          if s.permitState g ≠ .live ∨ s.permitState h ≠ .live then u = s1.refuseSetpoint a .notLive p follow
          else if (s.touching a ++ s.touching b).any s.tables.isPoisoned = true then
            u = ((s1.holdInPlace a).holdInPlace b).refuseSetpoint a .poisoned p follow
          else if b = a then
            u = ((s1.holdInPlace a).holdInPlace b).refuseSetpoint a .followerAddressed p follow
          else match s.axisRec[a].latest, s.axisRec[b].latest with
            | some l, some m =>
              if s.axisRec[a].missCount ≠ 0 ∨ s.axisRec[b].missCount ≠ 0 then
                u = ((s1.holdInPlace a).holdInPlace b).refuseSetpoint a .noSample p follow
              else ∃ low high : Int,
                low = max (l.position.toInt - s.tables.axes[a].held.maxStep.toNat)
                  (m.position.toInt - s.tables.axes[b].held.maxStep.toNat) ∧
                high = min (l.position.toInt + s.tables.axes[a].held.maxStep.toNat)
                  (m.position.toInt + s.tables.axes[b].held.maxStep.toNat) ∧
                if high < low then
                  u = ((s1.holdInPlace a).holdInPlace b).refuseSetpoint a .skewedReference p follow
                else ∃ (x : Int) (s2 : State), x = max low (min p.target.toInt high) ∧
                  s2 = (if x = p.target.toInt then s1
                    else (s1.modAxis a fun r => { r with clampCount := satInc r.clampCount }).modAxis b
                      fun r => { r with clampCount := satInc r.clampCount }) ∧
                  if x < s.tables.axes[a].held.softLow.toInt ∨ s.tables.axes[a].held.softHigh.toInt < x then
                    u = ((s2.holdInPlace a).holdInPlace b).refuseSetpoint a .window p follow
                  else if s.meetsUnowned x ⟨a, l.position, s.tables.axes[a].held⟩ = true then
                    u = ((s2.holdInPlace a).holdInPlace b).refuseSetpoint a .zone p follow
                  else if x < s.tables.axes[b].held.softLow.toInt ∨ s.tables.axes[b].held.softHigh.toInt < x then
                    u = ((s2.holdInPlace a).holdInPlace b).refuseSetpoint a .window p follow
                  else if s.meetsUnowned x ⟨b, m.position, s.tables.axes[b].held⟩ = true then
                    u = ((s2.holdInPlace a).holdInPlace b).refuseSetpoint a .zone p follow
                  else u = ((((s2.enqueue ⟨a, .position, BitVec.ofInt 32 x,
                    if s.tables.axes[a].held.velocityLimit.toNat < p.cap.toNat then
                      s.tables.axes[a].held.velocityLimit else p.cap, l.position⟩).modAxis a fun r =>
                        { r with refusalReported := false }).enqueue ⟨b, .position, BitVec.ofInt 32 x,
                    if s.tables.axes[b].held.velocityLimit.toNat < p.cap.toNat then
                      s.tables.axes[b].held.velocityLimit else p.cap, m.position⟩).modAxis b fun r =>
                        { r with refusalReported := false })
            | _, _ => u = ((s1.holdInPlace a).holdInPlace b).refuseSetpoint a .noSample p follow
        | _, _ => u = s1.refuseSetpoint a .noGroup p follow) ∧
  ∀ (s : State) (a : AxisIx),
    (s.axisRec[a].latest = none ∨ s.tables.axes[a].poisoned = true → s.holdInPlace a = s) ∧
    ∀ l, s.axisRec[a].latest = some l → s.tables.axes[a].poisoned = false →
      s.holdInPlace a = s.enqueue ⟨a, .hold, l.position, 0, l.position⟩

/-- The common target of a dual-cast unit (R47): within each axis's max step, and the nearest such point to the request;
no point is when the intervals do not overlap. -/
def Obligations.CommonTargetIsNearest : Prop :=
  ∀ (m n : Mover) (request : Int),
    (stepLow [m, n] ≤ stepHigh [m, n] →
      (∀ k ∈ [m, n], (nearest (stepLow [m, n]) (stepHigh [m, n]) request - k.reference.toInt).natAbs ≤
        k.fields.maxStep.toNat) ∧
      ∀ y : Int, (∀ k ∈ [m, n], (y - k.reference.toInt).natAbs ≤ k.fields.maxStep.toNat) →
        (nearest (stepLow [m, n]) (stepHigh [m, n]) request - request).natAbs ≤ (y - request).natAbs) ∧
    (stepHigh [m, n] < stepLow [m, n] →
      ¬∃ y : Int, ∀ k ∈ [m, n], (y - k.reference.toInt).natAbs ≤ k.fields.maxStep.toNat)

/-! ## Management, lines and integrity -/

/-- LOAD_SCHEDULE (R157, R158), with the report of a load that takes effect at once. -/
def Obligations.ScheduleLoadNeedsEverySource : Prop :=
  ∀ (s : State) (q : Request), s.Presents q .loadSchedule → ∃ t, exec .loadSchedule s = .next t ∧
    if s.cl.schedule.loadPending = true then Answered q s.popRequest .busy [[]] t
    else match missingSource s.cl.schedule.shadow with
      | some src => Answered q s.popRequest .badSchedule [[src.code]] t
      | none =>
        (s.cl.tx.isSome = true ∨ s.cl.anyWaiting = true → Answered q { s.popRequest with
          cl := { s.cl with schedule := { s.cl.schedule with loadPending := true } } } .ok [[1]] t) ∧
        (s.cl.tx = none → s.cl.anyWaiting = false → ∃ u, Answered q u .ok [[0]] t ∧
          u = { s.popRequest with cl := u.cl } ∧ u.cl.schedule.live = s.cl.schedule.shadow ∧
          u.cl.schedule.shadow = s.cl.schedule.shadow ∧
          u.cl.schedule.loadPending = false ∧
          ∃ loaded : ClSide, loaded = ({ s.cl with schedule := { s.cl.schedule with
              live := s.cl.schedule.shadow, loadPending := false, pointer := 0 } } : ClSide).queueReport s.postContext
                (.scheduleLoaded (phaseCounts s.cl.schedule.shadow) .idle) ∧
            (reportEnabled s.settings.reportMask .scheduleLoaded = false → u.cl = loaded) ∧
            (reportEnabled s.settings.reportMask .scheduleLoaded = true → ∃ k : Fin 32, u.cl = loaded.takePhase k ∧
              loaded.waiting loaded.schedule.live[k] = true ∧
              ∀ j < k, loaded.waiting loaded.schedule.live[j] = false))

/-- READ_TRIP_RECORD and REWIND_TRIP_RECORDS (R119). The bytes of the replies are R168's, in the fields of log 16, the
model's reading. -/
def Obligations.TripRecordsAreReadInTurn : Prop :=
  ∀ (s : State) (q : Request),
    (s.Presents q .readTripRecord → ∃ t, exec .readTripRecord s = .next t ∧
      (∀ r, s.ring.slots[s.ring.readPtr] = some r → Answered q { s.popRequest with
        ring := { s.ring with readPtr := s.ring.readPtr + 1 } } .ok (r.parts s.ring.readPtr) t) ∧
      (s.ring.slots[s.ring.readPtr] = none → Answered q { s.popRequest with
        ring := { s.ring with readPtr := s.ring.readPtr + 1 } } .empty [[1, natByte s.ring.readPtr]] t)) ∧
    (s.Presents q .rewindTripRecords → ∃ t k, exec .rewindTripRecords s = .next t ∧
      k = (if ∀ i : Fin 8, s.ring.slots[i].isSome = true then s.ring.writePtr else 0) ∧
      Answered q { s.popRequest with ring := { s.ring with readPtr := k } } .ok [[natByte k]] t)

/-- READ_STATUS returns the page and changes nothing (R148). One byte for each capacity of page 0 is log 16, the model's
reading. -/
def Obligations.StatusPagesChangeNothing : Prop :=
  ∀ (s : State) (q : Request) (k : Fin 5), s.Presents q (.readStatus (natByte k)) →
    ∃ t, exec .readStatus s = .next t ∧ Answered q s.popRequest .ok [statusPage s.popRequest k] t ∧
      (k = 0 → statusPage s.popRequest k =
        [0x64#8, 0x01#8, 64, 8, 32, 16, 128, 8, 8, 32, 32, 32, 8, 8, 32]) ∧
      (k = 4 → statusPage s.popRequest k =
        bytes16 s.timer.cycle ++ bytes32 s.timer.timebase ++ bytes16 s.timer.period)

/-- CLEAR_COUNTERS (R149): each item cleared, and everything else kept. -/
def Obligations.ClearCountersClearsOnlyCounters : Prop :=
  ∀ (s : State) (q : Request), s.Presents q .clearCounters →
    ∃ t u, exec .clearCounters s = .next t ∧ Answered q u .ok [[]] t ∧
      (∀ sg : SegIx, u.segPorts[sg] = ⟨{ s.segPorts[sg].port with bad := 0 }, 0⟩) ∧
      u.clPort = ⟨{ s.clPort.port with bad := 0 }, 0⟩ ∧
      (∀ a : AxisIx, u.axisRec[a] = { s.axisRec[a] with lateCount := 0, clampCount := 0 }) ∧
      u.tables = { s.tables with
        axisErrors := ⟨0, false, .none⟩, groupErrors := ⟨0, false, .none⟩, pairErrors := ⟨0, false, .none⟩
        extentErrors := ⟨0, false, .none⟩ } ∧
      (∀ g : GroupIx, u.permits[g] =
        if s.permitState g = .tripped then s.permits[g] else { s.permits[g] with further := 0 }) ∧
      u.cl = { s.cl with overrunTotal := 0 } ∧
      u = { s.popRequest with
        segPorts := u.segPorts, clPort := u.clPort, axisRec := u.axisRec, tables := u.tables, permits := u.permits
        cl := u.cl }

/-- SOFT_RESET (R153, R154), while no record shows an error: refused while a valid group is not DISARMED; else answered
OK, the request queue emptied, and every block's soft reset to be taken, each in an event of its own. The order of those
events is free but for what R154 and R125 say of the timer, the monitor, the admission unit and the trip unit (log 20, the
model's choice: while blocks have yet to take it, SOFT_RESET is one block's event). Then what each block's event does,
and what they come to when all are done with nothing between. That the check unit's event also sets the other fields of each
link-check record is log 1, the model's choice. -/
def Obligations.SoftResetKeepsWrittenContents : Prop :=
  (∀ (s : State) (q : Request), s.Presents q .softReset → s.Sound →
    ∃ t, exec .softReset s = .next t ∧
      (∀ g : GroupIx, s.tables.groups[g].held.valid = true → s.permitState g ≠ .disarmed →
        (∀ h : GroupIx, h < g → s.tables.groups[h].held.valid = true → s.permitState h = .disarmed) →
        Answered q s.popRequest .notDisarmed [[natByte g]] t) ∧
      ((∀ g : GroupIx, s.tables.groups[g].held.valid = true → s.permitState g = .disarmed) →
        ∃ (code : Byte) (u : State), q.code = some code ∧
          u = s.popRequest.pushReply ⟨q.tag, code, .ok, s.timer.cycle, [[]]⟩ ∧
          t = { u with requests := [], resets := ResetBlock.all }.settle)) ∧
  (∀ s : State, s.resets ≠ [] → ∃ (b : ResetBlock) (v : State), b ∈ s.resets ∧
    exec .softReset s = .next ((v.resetBlock b).doneReset b).settle ∧ v = { s with freeCount := v.freeCount } ∧
    ((v.resetBlock b).doneReset b).resets = s.resets.erase b ∧ (b = .monitor → .timer ∉ s.resets) ∧
    (b = .admission → .monitor ∉ s.resets) ∧ (b = .trip → ∀ c ∈ s.resets, c = .trip)) ∧
  (∀ s : State,
    s.resetBlock .tables = { s with tables := { s.tables with
      axisErrors := ⟨0, false, .none⟩, groupErrors := ⟨0, false, .none⟩, pairErrors := ⟨0, false, .none⟩
      extentErrors := ⟨0, false, .none⟩, scrubPos := 0 } } ∧
    s.resetBlock .timer = { s with
      timer := { s.timer with cycle := 0, phase := 0 }
      egress := { s.egress with beacon := Vector.replicate 4 true } } ∧
    s.resetBlock .monitor = { s with
      axisRec := s.axisRec.map fun r =>
        ⟨r.checked, none, false, 0, false, false, 0, r.clampCount, r.refusalReported⟩
      pairRec := Vector.replicate 32 ⟨.normal, none⟩, waypoints := Vector.replicate 64 ⟨none, none⟩
      cl := { s.cl with forward := Vector.replicate 4 [] } } ∧
    s.resetBlock .admission = { s with
      axisRec := s.axisRec.map fun r => { r with clampCount := 0, refusalReported := false }
      egress := { s.egress with setpoints := Vector.replicate 4 [] } } ∧
    s.resetBlock .permit = { s with
      permits := Vector.replicate 8 ⟨.disarmed, 0, false, none, none, 0, 0⟩, brk := Vector.replicate 8 false } ∧
    s.resetBlock .zone = { s with zones := Vector.replicate 16 none } ∧
    s.resetBlock .trip =
      ({ s with egress := { s.egress with stopSet := Vector.replicate 4 [] } } : State).evaluateLines ∧
    s.resetBlock .check = { s with
      axisRec := s.axisRec.map fun r => { r with checked := false }
      checks := s.checks.map fun r => ⟨false, 0, r.phase, 0, false, 0, 0⟩
      egress := { s.egress with checkSlot := Vector.replicate 4 none }
      creep := Vector.replicate 8 ⟨.none, 0, 0, 0, .unknown⟩ } ∧
    (∀ sg : SegIx, s.resetBlock (.port (.seg sg)) = { s with
      segPorts := upd s.segPorts sg fun q => ⟨{ q.port with bad := 0 }, 0⟩ }) ∧
    s.resetBlock (.port .cl) = { s with clPort := ⟨{ s.clPort.port with bad := 0 }, 0⟩ } ∧
    s.resetBlock .management = { s with cl := { s.cl with reports := [], overrunTotal := 0 } } ∧
    s.resetBlock .scheduler = { s with cl := { s.cl with
      schedule := { s.cl.schedule with loadPending := false, pointer := 0 } } }) ∧
  ∀ s t : State, s.Sound → s.resets = ResetBlock.all → t = s.finishResets →
    t.timer = ⟨s.timer.timebase, 0, s.timer.period, 0⟩ ∧
    (∀ a : AxisIx, t.axisRec[a] = AxisRecord.reset ∧ t.waypoints[a] = ⟨none, none⟩) ∧
    (∀ p : PairIx, t.pairRec[p] = ⟨.normal, none⟩) ∧
    (∀ g : GroupIx, t.permits[g] = ⟨.disarmed, 0, false, none, none, 0, 0⟩ ∧ t.brk[g] = false ∧
      t.creep[g] = ⟨.none, 0, 0, 0, .unknown⟩) ∧
    (∀ z : ZoneIx, t.zones[z] = none) ∧
    (∀ sg : SegIx, t.checks[sg].inFlight = false ∧ t.checks[sg].phase = s.checks[sg].phase ∧
      t.egress.setpoints[sg] = [] ∧ t.egress.checkSlot[sg] = none ∧ t.egress.stopSet[sg] = [] ∧
      t.segPorts[sg] = ⟨{ s.segPorts[sg].port with bad := 0 }, 0⟩ ∧
      (s.egress.tx[sg].isSome = true → t.egress.tx[sg] = s.egress.tx[sg] ∧ t.egress.beacon[sg] = true)) ∧
    t.tables = { s.tables with
      axisErrors := ⟨0, false, .none⟩, groupErrors := ⟨0, false, .none⟩, pairErrors := ⟨0, false, .none⟩
      extentErrors := ⟨0, false, .none⟩, scrubPos := 0 } ∧
    t.ring = s.ring ∧ t.inputs = s.inputs ∧ t.settings = s.settings ∧ t.requests = s.requests ∧ t.paths = s.paths ∧
    t.clPort = ⟨{ s.clPort.port with bad := 0 }, 0⟩ ∧
    t.cl = { s.cl with
      forward := Vector.replicate 4 [], reports := [], overrunTotal := 0
      schedule := { s.cl.schedule with loadPending := false, pointer := 0 } } ∧
    t.resets = [] ∧ t.pending = s.pending ∧
    ∃ l, t.inFlight = s.inFlight ++ l ∧ ∀ x, x ∈ l ↔ ∃ (n : LineIx) (g : GroupIx),
      s.inputs[n].isActive = true ∧ g ∈ groupsOf s.inputs[n].groups ∧
        x = (TripSender.resetEvaluation, ⟨g, ⟨.input, .line n⟩, none⟩)

/-- A change of a line's level (R122, R124): the held level, the INPUT_CHANGE report, and the requests of a line that is
now active, which wait in flight, so the report stands before those of their trips; the level already held is no change
(log 1), the model's choice. A line that is now active refuses CLEAR_TRIP of each group it maps (R104, R105). Every mapped
group that is not TRIPPED gets a request, and no group already TRIPPED does (R124), but for one whose CLEAR_TRIP could be taken
at this moment and would be accepted: of it R105 and R124 differ, and its request is free (log 27, the model's choice). -/
def Obligations.ActiveLineSendsRequests : Prop :=
  ∀ (s : State) (l : LineIx) (level : Level), ∃ t, exec (.inputLevelChange l level) s = .next t ∧
    (level = s.inputs[l].held → t = s) ∧
    (level ≠ s.inputs[l].held →
      t.inputs = upd s.inputs l (fun r => { r with held := level }) ∧
      t = { s with
        inputs := t.inputs, inFlight := t.inFlight, freeCount := t.freeCount
        cl := s.cl.post s.postContext
          (.inputChange l level (level == s.inputs[l].active) s.inputs[l].groups) } ∧
      (∃ also : Option GroupIx,
        (∀ g, also = some g → ∃ q, s.Presents q (.clearTrip (natByte g)) ∧ s.permitState g = .tripped ∧
          (clearTripGroup g s.popRequest).status = .ok) ∧
        t.inFlight = s.inFlight ++
          (if level = s.inputs[l].active then
            ((groupsOf s.inputs[l].groups).filter fun g => s.permitState g != .tripped || also == some g).map fun g =>
              (TripSender.tripUnit, ⟨g, ⟨.input, .line l⟩, none⟩)
          else [])) ∧
      (level = s.inputs[l].active → ∀ g ∈ groupsOf s.inputs[l].groups,
        ∃ n ≤ l, t.activeLineFor g = some n ∧ t.inputs[n].isActive = true ∧ g ∈ groupsOf t.inputs[n].groups))

/-- The outcomes of a checked read (R138 to R141), with the TABLE_ERROR report of each. A record that shows a single-bit
error at every read shows it again after its contents are corrected (R139). A poisoned axis has its link check ended and
its queue entries removed (R140). -/
def Obligations.CheckedReadCorrectsOrPoisons : Prop :=
  (∀ (F : Type) (f g : F), (⟨f, .single g, false⟩ : Stored F).correct = ⟨g, .clean, false⟩ ∧
    (⟨f, .lasting g, false⟩ : Stored F).correct = ⟨g, .lasting g, false⟩) ∧
  ∀ (s : State) (b : ReadingBlock) (e : EntryRef),
    (s.tables.outcome e = .clean ∨ s.tables.outcome e = .already → s.touch b e = s) ∧
    (s.tables.outcome e = .single →
      (s.touch b e).tables.outcome e = (if s.tables.lasts e = true then .single else .clean) ∧
      s.touch b e = { s with
        tables := (s.touch b e).tables
        cl := s.cl.post s.postContext
          (.tableError e (.corrected (satInc (s.tables.errors e.table).corrected)) b) } ∧
      (s.touch b e).tables = s.tables.noteCorrected e ∧
      ((s.touch b e).tables.errors e.table).corrected = satInc (s.tables.errors e.table).corrected ∧
      ((s.touch b e).tables.errors e.table).last = .corrected e.index) ∧
    (s.tables.outcome e = .uncorrectable →
      (s.touch b e).tables.outcome e = .already ∧ Quiet s (s.touch b e) ∧
      (∃ v w : State,
        v = { s with
          tables := s.tables.notePoisoned e
          cl := s.cl.post s.postContext (.tableError e (.uncorrectable (s.namedGroup e)) b) } ∧
        w = (match s.namedGroup e with
          | some g => v.trip ⟨g, ⟨.tableFault, .entry e⟩, none⟩
          | none => v) ∧
        ((∀ a : AxisIx, e ≠ .axis a) → s.touch b e = w) ∧
        ∀ a : AxisIx, e = .axis a → s.touch b e = { w with
            checks := (s.touch b e).checks
            egress := { w.egress with
              setpoints := (s.touch b e).egress.setpoints, checkSlot := (s.touch b e).egress.checkSlot }
            cl := w.cl.withoutAxis s.postContext w.checks a } ∧
          ∀ sg : SegIx,
            (s.touch b e).checks[sg] =
              (if w.checks[sg].inFlight = true ∧ w.checks[sg].axis = a then { w.checks[sg] with inFlight := false }
              else w.checks[sg]) ∧
            (s.touch b e).egress.checkSlot[sg] =
              (if w.checks[sg].inFlight = true ∧ w.checks[sg].axis = a ∧ w.checks[sg].sent = false then none
              else w.egress.checkSlot[sg]) ∧
            (s.touch b e).egress.setpoints[sg] = w.egress.setpoints[sg].filter fun q => q.axis != a) ∧
      ((s.touch b e).tables.errors e.table).uncorrectable = true ∧
      (∀ g, s.namedGroup e = some g → s.permitState g = .primed ∨ s.permitState g = .live →
        (s.touch b e).permitState g = .tripped ∧
          (s.touch b e).permits[g].cause = some ⟨.tableFault, .entry e⟩) ∧
      (∀ a : AxisIx, e = .axis a → ∀ sg : SegIx,
        (∀ x ∈ (s.touch b e).egress.setpoints[sg], x.axis ≠ a) ∧ (∀ x ∈ (s.touch b e).cl.forward[sg], x.axis ≠ a)))

/-! ## What every step keeps -/

/-- A brake-release line is asserted exactly while its group is LIVE, from reset on and after every step (R106). -/
def Obligations.BrakeFollowsLive : Prop :=
  BrakeLaw State.reset ∧ ∀ s t : State, BrakeLaw s → Machine.step s = .next t → BrakeLaw t

/-- The lapse counters and the timer stay in their ranges (R92, R97, R20, R22, R147), a valid group entry stays in the
ranges of R9, and the live schedule table always names all six sources (R155, R157). The bounds that R97 gives the lapse
counter in PRIMED and LIVE are kept while no record shows an error. -/
def Obligations.CountersStayInRange : Prop :=
  (∀ s t : State, LapseLaw s → Machine.step s = .next t → LapseLaw t) ∧
    (∀ s t : State, RangeLaw s → Machine.step s = .next t → RangeLaw t) ∧
    (∀ s t : State, s.Sound → RangeLaw s → ArmedLaw s → LapseBoundLaw s → Machine.step s = .next t →
      LapseBoundLaw t) ∧
    (∀ s t : State, TimerLaw s → Machine.step s = .next t → TimerLaw t) ∧
    ∀ s t : State, ScheduleLaw s → Machine.step s = .next t → ScheduleLaw t

/-- No queue or path grows past its capacity, and no queue holds an axis twice (R34, R76, R112, R145, R146, R150,
R162). A setpoint queue and a sample-forward queue hold at most 32 entries, because each is for a valid axis of the
segment with a station of its own (R3), while no record shows an error. -/
def Obligations.QueuesStayWithinBounds : Prop :=
  (∀ s t : State, QueueLaw s → Machine.step s = .next t → QueueLaw t) ∧
    (∀ s t : State, OneEachLaw s → Machine.step s = .next t → OneEachLaw t) ∧
    (∀ s t : State, AxisRangeLaw s → Machine.step s = .next t → AxisRangeLaw t) ∧
    (∀ s t : State, s.Sound → AxisRangeLaw s → QueuedLaw s → Machine.step s = .next t → QueuedLaw t) ∧
    ∀ s : State, s.Sound → StationLaw s → OneEachLaw s → AxisRangeLaw s → QueuedLaw s →
      ∀ sg : SegIx, s.egress.setpoints[sg].length ≤ 32 ∧ s.cl.forward[sg].length ≤ 32

/-- No step makes an error in a record that showed none (R138; log 10), no two valid axis entries share a station, the
membership index agrees with the group entries, and an axis in a group has a valid entry (R3, R4, R7, R11). -/
def Obligations.TablesStayConsistent : Prop :=
  (∀ s t : State, s.Sound → Machine.step s = .next t → t.Sound) ∧
    (∀ s t : State, StationLaw s → Machine.step s = .next t → StationLaw t) ∧
    ∀ s t : State, IndexLaw s → Machine.step s = .next t → IndexLaw t

/-- The law of the setpoint queues (R51), while no record shows an error. -/
def Obligations.QueuedMotionIsPermitted : Prop :=
  ∀ s t : State, s.Sound → IndexLaw s → ArmedLaw s → PositionLaw s → Machine.step s = .next t → PositionLaw t

/-- The law of an armed group (R107), while no record shows an error. -/
def Obligations.ArmedGroupsStayChecked : Prop :=
  ∀ s t : State, s.Sound → IndexLaw s → ArmedLaw s → Machine.step s = .next t → ArmedLaw t
end

