-- ==== Sys2Proof/Laws/State.lean ====
section
/-! SUPPORT. What each named update of State does to each field: one lemma per field, true by rfl. -/

namespace Sys2Proof.Machine

section
variable (s : State) (a : AxisIx) (f : AxisRecord → AxisRecord)

@[simp] theorem State.modAxis_timer : (s.modAxis a f).timer = s.timer := rfl
@[simp] theorem State.modAxis_tables : (s.modAxis a f).tables = s.tables := rfl
@[simp] theorem State.modAxis_axisRec : (s.modAxis a f).axisRec = upd s.axisRec a f := rfl
@[simp] theorem State.modAxis_pairRec : (s.modAxis a f).pairRec = s.pairRec := rfl
@[simp] theorem State.modAxis_waypoints : (s.modAxis a f).waypoints = s.waypoints := rfl
@[simp] theorem State.modAxis_permits : (s.modAxis a f).permits = s.permits := rfl
@[simp] theorem State.modAxis_brk : (s.modAxis a f).brk = s.brk := rfl
@[simp] theorem State.modAxis_zones : (s.modAxis a f).zones = s.zones := rfl
@[simp] theorem State.modAxis_egress : (s.modAxis a f).egress = s.egress := rfl
@[simp] theorem State.modAxis_ring : (s.modAxis a f).ring = s.ring := rfl
@[simp] theorem State.modAxis_inputs : (s.modAxis a f).inputs = s.inputs := rfl
@[simp] theorem State.modAxis_checks : (s.modAxis a f).checks = s.checks := rfl
@[simp] theorem State.modAxis_creep : (s.modAxis a f).creep = s.creep := rfl
@[simp] theorem State.modAxis_segPorts : (s.modAxis a f).segPorts = s.segPorts := rfl
@[simp] theorem State.modAxis_clPort : (s.modAxis a f).clPort = s.clPort := rfl
@[simp] theorem State.modAxis_paths : (s.modAxis a f).paths = s.paths := rfl
@[simp] theorem State.modAxis_inFlight : (s.modAxis a f).inFlight = s.inFlight := rfl
@[simp] theorem State.modAxis_settings : (s.modAxis a f).settings = s.settings := rfl
@[simp] theorem State.modAxis_requests : (s.modAxis a f).requests = s.requests := rfl
@[simp] theorem State.modAxis_cl : (s.modAxis a f).cl = s.cl := rfl
@[simp] theorem State.modAxis_resets : (s.modAxis a f).resets = s.resets := rfl
@[simp] theorem State.modAxis_freeCount : (s.modAxis a f).freeCount = s.freeCount := rfl
@[simp] theorem State.modAxis_pending : (s.modAxis a f).pending = s.pending := rfl

end

section
variable (s : State) (p : PairIx) (f : PairRecord → PairRecord)

@[simp] theorem State.modPair_timer : (s.modPair p f).timer = s.timer := rfl
@[simp] theorem State.modPair_tables : (s.modPair p f).tables = s.tables := rfl
@[simp] theorem State.modPair_axisRec : (s.modPair p f).axisRec = s.axisRec := rfl
@[simp] theorem State.modPair_pairRec : (s.modPair p f).pairRec = upd s.pairRec p f := rfl
@[simp] theorem State.modPair_waypoints : (s.modPair p f).waypoints = s.waypoints := rfl
@[simp] theorem State.modPair_permits : (s.modPair p f).permits = s.permits := rfl
@[simp] theorem State.modPair_brk : (s.modPair p f).brk = s.brk := rfl
@[simp] theorem State.modPair_zones : (s.modPair p f).zones = s.zones := rfl
@[simp] theorem State.modPair_egress : (s.modPair p f).egress = s.egress := rfl
@[simp] theorem State.modPair_ring : (s.modPair p f).ring = s.ring := rfl
@[simp] theorem State.modPair_inputs : (s.modPair p f).inputs = s.inputs := rfl
@[simp] theorem State.modPair_checks : (s.modPair p f).checks = s.checks := rfl
@[simp] theorem State.modPair_creep : (s.modPair p f).creep = s.creep := rfl
@[simp] theorem State.modPair_segPorts : (s.modPair p f).segPorts = s.segPorts := rfl
@[simp] theorem State.modPair_clPort : (s.modPair p f).clPort = s.clPort := rfl
@[simp] theorem State.modPair_paths : (s.modPair p f).paths = s.paths := rfl
@[simp] theorem State.modPair_inFlight : (s.modPair p f).inFlight = s.inFlight := rfl
@[simp] theorem State.modPair_settings : (s.modPair p f).settings = s.settings := rfl
@[simp] theorem State.modPair_requests : (s.modPair p f).requests = s.requests := rfl
@[simp] theorem State.modPair_cl : (s.modPair p f).cl = s.cl := rfl
@[simp] theorem State.modPair_resets : (s.modPair p f).resets = s.resets := rfl
@[simp] theorem State.modPair_freeCount : (s.modPair p f).freeCount = s.freeCount := rfl
@[simp] theorem State.modPair_pending : (s.modPair p f).pending = s.pending := rfl

end

section
variable (s : State) (g : GroupIx) (f : Permit → Permit)

@[simp] theorem State.modPermit_timer : (s.modPermit g f).timer = s.timer := rfl
@[simp] theorem State.modPermit_tables : (s.modPermit g f).tables = s.tables := rfl
@[simp] theorem State.modPermit_axisRec : (s.modPermit g f).axisRec = s.axisRec := rfl
@[simp] theorem State.modPermit_pairRec : (s.modPermit g f).pairRec = s.pairRec := rfl
@[simp] theorem State.modPermit_waypoints : (s.modPermit g f).waypoints = s.waypoints := rfl
@[simp] theorem State.modPermit_permits : (s.modPermit g f).permits = upd s.permits g f := rfl
@[simp] theorem State.modPermit_brk : (s.modPermit g f).brk = s.brk := rfl
@[simp] theorem State.modPermit_zones : (s.modPermit g f).zones = s.zones := rfl
@[simp] theorem State.modPermit_egress : (s.modPermit g f).egress = s.egress := rfl
@[simp] theorem State.modPermit_ring : (s.modPermit g f).ring = s.ring := rfl
@[simp] theorem State.modPermit_inputs : (s.modPermit g f).inputs = s.inputs := rfl
@[simp] theorem State.modPermit_checks : (s.modPermit g f).checks = s.checks := rfl
@[simp] theorem State.modPermit_creep : (s.modPermit g f).creep = s.creep := rfl
@[simp] theorem State.modPermit_segPorts : (s.modPermit g f).segPorts = s.segPorts := rfl
@[simp] theorem State.modPermit_clPort : (s.modPermit g f).clPort = s.clPort := rfl
@[simp] theorem State.modPermit_paths : (s.modPermit g f).paths = s.paths := rfl
@[simp] theorem State.modPermit_inFlight : (s.modPermit g f).inFlight = s.inFlight := rfl
@[simp] theorem State.modPermit_settings : (s.modPermit g f).settings = s.settings := rfl
@[simp] theorem State.modPermit_requests : (s.modPermit g f).requests = s.requests := rfl
@[simp] theorem State.modPermit_cl : (s.modPermit g f).cl = s.cl := rfl
@[simp] theorem State.modPermit_resets : (s.modPermit g f).resets = s.resets := rfl
@[simp] theorem State.modPermit_freeCount : (s.modPermit g f).freeCount = s.freeCount := rfl
@[simp] theorem State.modPermit_pending : (s.modPermit g f).pending = s.pending := rfl

end

section
variable (s : State) (g : GroupIx) (b : Bool)

@[simp] theorem State.setBrk_timer : (s.setBrk g b).timer = s.timer := rfl
@[simp] theorem State.setBrk_tables : (s.setBrk g b).tables = s.tables := rfl
@[simp] theorem State.setBrk_axisRec : (s.setBrk g b).axisRec = s.axisRec := rfl
@[simp] theorem State.setBrk_pairRec : (s.setBrk g b).pairRec = s.pairRec := rfl
@[simp] theorem State.setBrk_waypoints : (s.setBrk g b).waypoints = s.waypoints := rfl
@[simp] theorem State.setBrk_permits : (s.setBrk g b).permits = s.permits := rfl
@[simp] theorem State.setBrk_brk : (s.setBrk g b).brk = s.brk.set g b := rfl
@[simp] theorem State.setBrk_zones : (s.setBrk g b).zones = s.zones := rfl
@[simp] theorem State.setBrk_egress : (s.setBrk g b).egress = s.egress := rfl
@[simp] theorem State.setBrk_ring : (s.setBrk g b).ring = s.ring := rfl
@[simp] theorem State.setBrk_inputs : (s.setBrk g b).inputs = s.inputs := rfl
@[simp] theorem State.setBrk_checks : (s.setBrk g b).checks = s.checks := rfl
@[simp] theorem State.setBrk_creep : (s.setBrk g b).creep = s.creep := rfl
@[simp] theorem State.setBrk_segPorts : (s.setBrk g b).segPorts = s.segPorts := rfl
@[simp] theorem State.setBrk_clPort : (s.setBrk g b).clPort = s.clPort := rfl
@[simp] theorem State.setBrk_paths : (s.setBrk g b).paths = s.paths := rfl
@[simp] theorem State.setBrk_inFlight : (s.setBrk g b).inFlight = s.inFlight := rfl
@[simp] theorem State.setBrk_settings : (s.setBrk g b).settings = s.settings := rfl
@[simp] theorem State.setBrk_requests : (s.setBrk g b).requests = s.requests := rfl
@[simp] theorem State.setBrk_cl : (s.setBrk g b).cl = s.cl := rfl
@[simp] theorem State.setBrk_resets : (s.setBrk g b).resets = s.resets := rfl
@[simp] theorem State.setBrk_freeCount : (s.setBrk g b).freeCount = s.freeCount := rfl
@[simp] theorem State.setBrk_pending : (s.setBrk g b).pending = s.pending := rfl

end

section
variable (s : State) (sg : SegIx) (f : LinkCheck → LinkCheck)

@[simp] theorem State.modCheck_timer : (s.modCheck sg f).timer = s.timer := rfl
@[simp] theorem State.modCheck_tables : (s.modCheck sg f).tables = s.tables := rfl
@[simp] theorem State.modCheck_axisRec : (s.modCheck sg f).axisRec = s.axisRec := rfl
@[simp] theorem State.modCheck_pairRec : (s.modCheck sg f).pairRec = s.pairRec := rfl
@[simp] theorem State.modCheck_waypoints : (s.modCheck sg f).waypoints = s.waypoints := rfl
@[simp] theorem State.modCheck_permits : (s.modCheck sg f).permits = s.permits := rfl
@[simp] theorem State.modCheck_brk : (s.modCheck sg f).brk = s.brk := rfl
@[simp] theorem State.modCheck_zones : (s.modCheck sg f).zones = s.zones := rfl
@[simp] theorem State.modCheck_egress : (s.modCheck sg f).egress = s.egress := rfl
@[simp] theorem State.modCheck_ring : (s.modCheck sg f).ring = s.ring := rfl
@[simp] theorem State.modCheck_inputs : (s.modCheck sg f).inputs = s.inputs := rfl
@[simp] theorem State.modCheck_checks : (s.modCheck sg f).checks = upd s.checks sg f := rfl
@[simp] theorem State.modCheck_creep : (s.modCheck sg f).creep = s.creep := rfl
@[simp] theorem State.modCheck_segPorts : (s.modCheck sg f).segPorts = s.segPorts := rfl
@[simp] theorem State.modCheck_clPort : (s.modCheck sg f).clPort = s.clPort := rfl
@[simp] theorem State.modCheck_paths : (s.modCheck sg f).paths = s.paths := rfl
@[simp] theorem State.modCheck_inFlight : (s.modCheck sg f).inFlight = s.inFlight := rfl
@[simp] theorem State.modCheck_settings : (s.modCheck sg f).settings = s.settings := rfl
@[simp] theorem State.modCheck_requests : (s.modCheck sg f).requests = s.requests := rfl
@[simp] theorem State.modCheck_cl : (s.modCheck sg f).cl = s.cl := rfl
@[simp] theorem State.modCheck_resets : (s.modCheck sg f).resets = s.resets := rfl
@[simp] theorem State.modCheck_freeCount : (s.modCheck sg f).freeCount = s.freeCount := rfl
@[simp] theorem State.modCheck_pending : (s.modCheck sg f).pending = s.pending := rfl

end

section
variable (s : State) (g : GroupIx) (f : CreepRun → CreepRun)

@[simp] theorem State.modCreep_timer : (s.modCreep g f).timer = s.timer := rfl
@[simp] theorem State.modCreep_tables : (s.modCreep g f).tables = s.tables := rfl
@[simp] theorem State.modCreep_axisRec : (s.modCreep g f).axisRec = s.axisRec := rfl
@[simp] theorem State.modCreep_pairRec : (s.modCreep g f).pairRec = s.pairRec := rfl
@[simp] theorem State.modCreep_waypoints : (s.modCreep g f).waypoints = s.waypoints := rfl
@[simp] theorem State.modCreep_permits : (s.modCreep g f).permits = s.permits := rfl
@[simp] theorem State.modCreep_brk : (s.modCreep g f).brk = s.brk := rfl
@[simp] theorem State.modCreep_zones : (s.modCreep g f).zones = s.zones := rfl
@[simp] theorem State.modCreep_egress : (s.modCreep g f).egress = s.egress := rfl
@[simp] theorem State.modCreep_ring : (s.modCreep g f).ring = s.ring := rfl
@[simp] theorem State.modCreep_inputs : (s.modCreep g f).inputs = s.inputs := rfl
@[simp] theorem State.modCreep_checks : (s.modCreep g f).checks = s.checks := rfl
@[simp] theorem State.modCreep_creep : (s.modCreep g f).creep = upd s.creep g f := rfl
@[simp] theorem State.modCreep_segPorts : (s.modCreep g f).segPorts = s.segPorts := rfl
@[simp] theorem State.modCreep_clPort : (s.modCreep g f).clPort = s.clPort := rfl
@[simp] theorem State.modCreep_paths : (s.modCreep g f).paths = s.paths := rfl
@[simp] theorem State.modCreep_inFlight : (s.modCreep g f).inFlight = s.inFlight := rfl
@[simp] theorem State.modCreep_settings : (s.modCreep g f).settings = s.settings := rfl
@[simp] theorem State.modCreep_requests : (s.modCreep g f).requests = s.requests := rfl
@[simp] theorem State.modCreep_cl : (s.modCreep g f).cl = s.cl := rfl
@[simp] theorem State.modCreep_resets : (s.modCreep g f).resets = s.resets := rfl
@[simp] theorem State.modCreep_freeCount : (s.modCreep g f).freeCount = s.freeCount := rfl
@[simp] theorem State.modCreep_pending : (s.modCreep g f).pending = s.pending := rfl

end

section
variable (s : State) (f : TableStore → TableStore)

@[simp] theorem State.modTables_timer : (s.modTables f).timer = s.timer := rfl
@[simp] theorem State.modTables_tables : (s.modTables f).tables = f s.tables := rfl
@[simp] theorem State.modTables_axisRec : (s.modTables f).axisRec = s.axisRec := rfl
@[simp] theorem State.modTables_pairRec : (s.modTables f).pairRec = s.pairRec := rfl
@[simp] theorem State.modTables_waypoints : (s.modTables f).waypoints = s.waypoints := rfl
@[simp] theorem State.modTables_permits : (s.modTables f).permits = s.permits := rfl
@[simp] theorem State.modTables_brk : (s.modTables f).brk = s.brk := rfl
@[simp] theorem State.modTables_zones : (s.modTables f).zones = s.zones := rfl
@[simp] theorem State.modTables_egress : (s.modTables f).egress = s.egress := rfl
@[simp] theorem State.modTables_ring : (s.modTables f).ring = s.ring := rfl
@[simp] theorem State.modTables_inputs : (s.modTables f).inputs = s.inputs := rfl
@[simp] theorem State.modTables_checks : (s.modTables f).checks = s.checks := rfl
@[simp] theorem State.modTables_creep : (s.modTables f).creep = s.creep := rfl
@[simp] theorem State.modTables_segPorts : (s.modTables f).segPorts = s.segPorts := rfl
@[simp] theorem State.modTables_clPort : (s.modTables f).clPort = s.clPort := rfl
@[simp] theorem State.modTables_paths : (s.modTables f).paths = s.paths := rfl
@[simp] theorem State.modTables_inFlight : (s.modTables f).inFlight = s.inFlight := rfl
@[simp] theorem State.modTables_settings : (s.modTables f).settings = s.settings := rfl
@[simp] theorem State.modTables_requests : (s.modTables f).requests = s.requests := rfl
@[simp] theorem State.modTables_cl : (s.modTables f).cl = s.cl := rfl
@[simp] theorem State.modTables_resets : (s.modTables f).resets = s.resets := rfl
@[simp] theorem State.modTables_freeCount : (s.modTables f).freeCount = s.freeCount := rfl
@[simp] theorem State.modTables_pending : (s.modTables f).pending = s.pending := rfl

end

section
variable (s : State) (f : Egress → Egress)

@[simp] theorem State.modEgress_timer : (s.modEgress f).timer = s.timer := rfl
@[simp] theorem State.modEgress_tables : (s.modEgress f).tables = s.tables := rfl
@[simp] theorem State.modEgress_axisRec : (s.modEgress f).axisRec = s.axisRec := rfl
@[simp] theorem State.modEgress_pairRec : (s.modEgress f).pairRec = s.pairRec := rfl
@[simp] theorem State.modEgress_waypoints : (s.modEgress f).waypoints = s.waypoints := rfl
@[simp] theorem State.modEgress_permits : (s.modEgress f).permits = s.permits := rfl
@[simp] theorem State.modEgress_brk : (s.modEgress f).brk = s.brk := rfl
@[simp] theorem State.modEgress_zones : (s.modEgress f).zones = s.zones := rfl
@[simp] theorem State.modEgress_egress : (s.modEgress f).egress = f s.egress := rfl
@[simp] theorem State.modEgress_ring : (s.modEgress f).ring = s.ring := rfl
@[simp] theorem State.modEgress_inputs : (s.modEgress f).inputs = s.inputs := rfl
@[simp] theorem State.modEgress_checks : (s.modEgress f).checks = s.checks := rfl
@[simp] theorem State.modEgress_creep : (s.modEgress f).creep = s.creep := rfl
@[simp] theorem State.modEgress_segPorts : (s.modEgress f).segPorts = s.segPorts := rfl
@[simp] theorem State.modEgress_clPort : (s.modEgress f).clPort = s.clPort := rfl
@[simp] theorem State.modEgress_paths : (s.modEgress f).paths = s.paths := rfl
@[simp] theorem State.modEgress_inFlight : (s.modEgress f).inFlight = s.inFlight := rfl
@[simp] theorem State.modEgress_settings : (s.modEgress f).settings = s.settings := rfl
@[simp] theorem State.modEgress_requests : (s.modEgress f).requests = s.requests := rfl
@[simp] theorem State.modEgress_cl : (s.modEgress f).cl = s.cl := rfl
@[simp] theorem State.modEgress_resets : (s.modEgress f).resets = s.resets := rfl
@[simp] theorem State.modEgress_freeCount : (s.modEgress f).freeCount = s.freeCount := rfl
@[simp] theorem State.modEgress_pending : (s.modEgress f).pending = s.pending := rfl

end

section
variable (s : State) (sg : SegIx) (f : SegPort → SegPort)

@[simp] theorem State.modSegPort_timer : (s.modSegPort sg f).timer = s.timer := rfl
@[simp] theorem State.modSegPort_tables : (s.modSegPort sg f).tables = s.tables := rfl
@[simp] theorem State.modSegPort_axisRec : (s.modSegPort sg f).axisRec = s.axisRec := rfl
@[simp] theorem State.modSegPort_pairRec : (s.modSegPort sg f).pairRec = s.pairRec := rfl
@[simp] theorem State.modSegPort_waypoints : (s.modSegPort sg f).waypoints = s.waypoints := rfl
@[simp] theorem State.modSegPort_permits : (s.modSegPort sg f).permits = s.permits := rfl
@[simp] theorem State.modSegPort_brk : (s.modSegPort sg f).brk = s.brk := rfl
@[simp] theorem State.modSegPort_zones : (s.modSegPort sg f).zones = s.zones := rfl
@[simp] theorem State.modSegPort_egress : (s.modSegPort sg f).egress = s.egress := rfl
@[simp] theorem State.modSegPort_ring : (s.modSegPort sg f).ring = s.ring := rfl
@[simp] theorem State.modSegPort_inputs : (s.modSegPort sg f).inputs = s.inputs := rfl
@[simp] theorem State.modSegPort_checks : (s.modSegPort sg f).checks = s.checks := rfl
@[simp] theorem State.modSegPort_creep : (s.modSegPort sg f).creep = s.creep := rfl
@[simp] theorem State.modSegPort_segPorts : (s.modSegPort sg f).segPorts = upd s.segPorts sg f := rfl
@[simp] theorem State.modSegPort_clPort : (s.modSegPort sg f).clPort = s.clPort := rfl
@[simp] theorem State.modSegPort_paths : (s.modSegPort sg f).paths = s.paths := rfl
@[simp] theorem State.modSegPort_inFlight : (s.modSegPort sg f).inFlight = s.inFlight := rfl
@[simp] theorem State.modSegPort_settings : (s.modSegPort sg f).settings = s.settings := rfl
@[simp] theorem State.modSegPort_requests : (s.modSegPort sg f).requests = s.requests := rfl
@[simp] theorem State.modSegPort_cl : (s.modSegPort sg f).cl = s.cl := rfl
@[simp] theorem State.modSegPort_resets : (s.modSegPort sg f).resets = s.resets := rfl
@[simp] theorem State.modSegPort_freeCount : (s.modSegPort sg f).freeCount = s.freeCount := rfl
@[simp] theorem State.modSegPort_pending : (s.modSegPort sg f).pending = s.pending := rfl

end

section
variable (s : State) (f : ClPort → ClPort)

@[simp] theorem State.modClPort_timer : (s.modClPort f).timer = s.timer := rfl
@[simp] theorem State.modClPort_tables : (s.modClPort f).tables = s.tables := rfl
@[simp] theorem State.modClPort_axisRec : (s.modClPort f).axisRec = s.axisRec := rfl
@[simp] theorem State.modClPort_pairRec : (s.modClPort f).pairRec = s.pairRec := rfl
@[simp] theorem State.modClPort_waypoints : (s.modClPort f).waypoints = s.waypoints := rfl
@[simp] theorem State.modClPort_permits : (s.modClPort f).permits = s.permits := rfl
@[simp] theorem State.modClPort_brk : (s.modClPort f).brk = s.brk := rfl
@[simp] theorem State.modClPort_zones : (s.modClPort f).zones = s.zones := rfl
@[simp] theorem State.modClPort_egress : (s.modClPort f).egress = s.egress := rfl
@[simp] theorem State.modClPort_ring : (s.modClPort f).ring = s.ring := rfl
@[simp] theorem State.modClPort_inputs : (s.modClPort f).inputs = s.inputs := rfl
@[simp] theorem State.modClPort_checks : (s.modClPort f).checks = s.checks := rfl
@[simp] theorem State.modClPort_creep : (s.modClPort f).creep = s.creep := rfl
@[simp] theorem State.modClPort_segPorts : (s.modClPort f).segPorts = s.segPorts := rfl
@[simp] theorem State.modClPort_clPort : (s.modClPort f).clPort = f s.clPort := rfl
@[simp] theorem State.modClPort_paths : (s.modClPort f).paths = s.paths := rfl
@[simp] theorem State.modClPort_inFlight : (s.modClPort f).inFlight = s.inFlight := rfl
@[simp] theorem State.modClPort_settings : (s.modClPort f).settings = s.settings := rfl
@[simp] theorem State.modClPort_requests : (s.modClPort f).requests = s.requests := rfl
@[simp] theorem State.modClPort_cl : (s.modClPort f).cl = s.cl := rfl
@[simp] theorem State.modClPort_resets : (s.modClPort f).resets = s.resets := rfl
@[simp] theorem State.modClPort_freeCount : (s.modClPort f).freeCount = s.freeCount := rfl
@[simp] theorem State.modClPort_pending : (s.modClPort f).pending = s.pending := rfl

end

section
variable (s : State) (f : PostContext → ClSide → ClSide)

@[simp] theorem State.onCl_timer : (s.onCl f).timer = s.timer := rfl
@[simp] theorem State.onCl_tables : (s.onCl f).tables = s.tables := rfl
@[simp] theorem State.onCl_axisRec : (s.onCl f).axisRec = s.axisRec := rfl
@[simp] theorem State.onCl_pairRec : (s.onCl f).pairRec = s.pairRec := rfl
@[simp] theorem State.onCl_waypoints : (s.onCl f).waypoints = s.waypoints := rfl
@[simp] theorem State.onCl_permits : (s.onCl f).permits = s.permits := rfl
@[simp] theorem State.onCl_brk : (s.onCl f).brk = s.brk := rfl
@[simp] theorem State.onCl_zones : (s.onCl f).zones = s.zones := rfl
@[simp] theorem State.onCl_egress : (s.onCl f).egress = s.egress := rfl
@[simp] theorem State.onCl_ring : (s.onCl f).ring = s.ring := rfl
@[simp] theorem State.onCl_inputs : (s.onCl f).inputs = s.inputs := rfl
@[simp] theorem State.onCl_checks : (s.onCl f).checks = s.checks := rfl
@[simp] theorem State.onCl_creep : (s.onCl f).creep = s.creep := rfl
@[simp] theorem State.onCl_segPorts : (s.onCl f).segPorts = s.segPorts := rfl
@[simp] theorem State.onCl_clPort : (s.onCl f).clPort = s.clPort := rfl
@[simp] theorem State.onCl_paths : (s.onCl f).paths = s.paths := rfl
@[simp] theorem State.onCl_inFlight : (s.onCl f).inFlight = s.inFlight := rfl
@[simp] theorem State.onCl_settings : (s.onCl f).settings = s.settings := rfl
@[simp] theorem State.onCl_requests : (s.onCl f).requests = s.requests := rfl
@[simp] theorem State.onCl_cl : (s.onCl f).cl = f s.postContext s.cl := rfl
@[simp] theorem State.onCl_resets : (s.onCl f).resets = s.resets := rfl
@[simp] theorem State.onCl_freeCount : (s.onCl f).freeCount = s.freeCount := rfl
@[simp] theorem State.onCl_pending : (s.onCl f).pending = s.pending := rfl

end

section
variable (s : State) (b : ReportBody)

@[simp] theorem State.post_timer : (s.post b).timer = s.timer := rfl
@[simp] theorem State.post_tables : (s.post b).tables = s.tables := rfl
@[simp] theorem State.post_axisRec : (s.post b).axisRec = s.axisRec := rfl
@[simp] theorem State.post_pairRec : (s.post b).pairRec = s.pairRec := rfl
@[simp] theorem State.post_waypoints : (s.post b).waypoints = s.waypoints := rfl
@[simp] theorem State.post_permits : (s.post b).permits = s.permits := rfl
@[simp] theorem State.post_brk : (s.post b).brk = s.brk := rfl
@[simp] theorem State.post_zones : (s.post b).zones = s.zones := rfl
@[simp] theorem State.post_egress : (s.post b).egress = s.egress := rfl
@[simp] theorem State.post_ring : (s.post b).ring = s.ring := rfl
@[simp] theorem State.post_inputs : (s.post b).inputs = s.inputs := rfl
@[simp] theorem State.post_checks : (s.post b).checks = s.checks := rfl
@[simp] theorem State.post_creep : (s.post b).creep = s.creep := rfl
@[simp] theorem State.post_segPorts : (s.post b).segPorts = s.segPorts := rfl
@[simp] theorem State.post_clPort : (s.post b).clPort = s.clPort := rfl
@[simp] theorem State.post_paths : (s.post b).paths = s.paths := rfl
@[simp] theorem State.post_inFlight : (s.post b).inFlight = s.inFlight := rfl
@[simp] theorem State.post_settings : (s.post b).settings = s.settings := rfl
@[simp] theorem State.post_requests : (s.post b).requests = s.requests := rfl
@[simp] theorem State.post_cl : (s.post b).cl = ClSide.post s.postContext b s.cl := rfl
@[simp] theorem State.post_resets : (s.post b).resets = s.resets := rfl
@[simp] theorem State.post_freeCount : (s.post b).freeCount = s.freeCount := rfl
@[simp] theorem State.post_pending : (s.post b).pending = s.pending := rfl

end

section
variable (s : State) (w : TripSender) (r : TripRequest)

@[simp] theorem State.send_timer : (s.send w r).timer = s.timer := rfl
@[simp] theorem State.send_tables : (s.send w r).tables = s.tables := rfl
@[simp] theorem State.send_axisRec : (s.send w r).axisRec = s.axisRec := rfl
@[simp] theorem State.send_pairRec : (s.send w r).pairRec = s.pairRec := rfl
@[simp] theorem State.send_waypoints : (s.send w r).waypoints = s.waypoints := rfl
@[simp] theorem State.send_permits : (s.send w r).permits = s.permits := rfl
@[simp] theorem State.send_brk : (s.send w r).brk = s.brk := rfl
@[simp] theorem State.send_zones : (s.send w r).zones = s.zones := rfl
@[simp] theorem State.send_egress : (s.send w r).egress = s.egress := rfl
@[simp] theorem State.send_ring : (s.send w r).ring = s.ring := rfl
@[simp] theorem State.send_inputs : (s.send w r).inputs = s.inputs := rfl
@[simp] theorem State.send_checks : (s.send w r).checks = s.checks := rfl
@[simp] theorem State.send_creep : (s.send w r).creep = s.creep := rfl
@[simp] theorem State.send_segPorts : (s.send w r).segPorts = s.segPorts := rfl
@[simp] theorem State.send_clPort : (s.send w r).clPort = s.clPort := rfl
@[simp] theorem State.send_paths : (s.send w r).paths = s.paths := rfl
@[simp] theorem State.send_inFlight : (s.send w r).inFlight = s.inFlight ++ [(w, r)] := rfl
@[simp] theorem State.send_settings : (s.send w r).settings = s.settings := rfl
@[simp] theorem State.send_requests : (s.send w r).requests = s.requests := rfl
@[simp] theorem State.send_cl : (s.send w r).cl = s.cl := rfl
@[simp] theorem State.send_resets : (s.send w r).resets = s.resets := rfl
@[simp] theorem State.send_freeCount : (s.send w r).freeCount = s.freeCount := rfl
@[simp] theorem State.send_pending : (s.send w r).pending = s.pending := rfl

end

section
variable (s : State)

@[simp] theorem State.popRequest_timer : (s.popRequest).timer = s.timer := rfl
@[simp] theorem State.popRequest_tables : (s.popRequest).tables = s.tables := rfl
@[simp] theorem State.popRequest_axisRec : (s.popRequest).axisRec = s.axisRec := rfl
@[simp] theorem State.popRequest_pairRec : (s.popRequest).pairRec = s.pairRec := rfl
@[simp] theorem State.popRequest_waypoints : (s.popRequest).waypoints = s.waypoints := rfl
@[simp] theorem State.popRequest_permits : (s.popRequest).permits = s.permits := rfl
@[simp] theorem State.popRequest_brk : (s.popRequest).brk = s.brk := rfl
@[simp] theorem State.popRequest_zones : (s.popRequest).zones = s.zones := rfl
@[simp] theorem State.popRequest_egress : (s.popRequest).egress = s.egress := rfl
@[simp] theorem State.popRequest_ring : (s.popRequest).ring = s.ring := rfl
@[simp] theorem State.popRequest_inputs : (s.popRequest).inputs = s.inputs := rfl
@[simp] theorem State.popRequest_checks : (s.popRequest).checks = s.checks := rfl
@[simp] theorem State.popRequest_creep : (s.popRequest).creep = s.creep := rfl
@[simp] theorem State.popRequest_segPorts : (s.popRequest).segPorts = s.segPorts := rfl
@[simp] theorem State.popRequest_clPort : (s.popRequest).clPort = s.clPort := rfl
@[simp] theorem State.popRequest_paths : (s.popRequest).paths = s.paths := rfl
@[simp] theorem State.popRequest_inFlight : (s.popRequest).inFlight = s.inFlight := rfl
@[simp] theorem State.popRequest_settings : (s.popRequest).settings = s.settings := rfl
@[simp] theorem State.popRequest_requests : (s.popRequest).requests = s.requests.tail := rfl
@[simp] theorem State.popRequest_cl : (s.popRequest).cl = s.cl := rfl
@[simp] theorem State.popRequest_resets : (s.popRequest).resets = s.resets := rfl
@[simp] theorem State.popRequest_freeCount : (s.popRequest).freeCount = s.freeCount := rfl
@[simp] theorem State.popRequest_pending : (s.popRequest).pending = s.pending := rfl

end

section
variable (s : State) (k : Fin 8)

@[simp] theorem State.moveReadPtr_timer : (s.moveReadPtr k).timer = s.timer := rfl
@[simp] theorem State.moveReadPtr_tables : (s.moveReadPtr k).tables = s.tables := rfl
@[simp] theorem State.moveReadPtr_axisRec : (s.moveReadPtr k).axisRec = s.axisRec := rfl
@[simp] theorem State.moveReadPtr_pairRec : (s.moveReadPtr k).pairRec = s.pairRec := rfl
@[simp] theorem State.moveReadPtr_waypoints : (s.moveReadPtr k).waypoints = s.waypoints := rfl
@[simp] theorem State.moveReadPtr_permits : (s.moveReadPtr k).permits = s.permits := rfl
@[simp] theorem State.moveReadPtr_brk : (s.moveReadPtr k).brk = s.brk := rfl
@[simp] theorem State.moveReadPtr_zones : (s.moveReadPtr k).zones = s.zones := rfl
@[simp] theorem State.moveReadPtr_egress : (s.moveReadPtr k).egress = s.egress := rfl
@[simp] theorem State.moveReadPtr_ring : (s.moveReadPtr k).ring = { s.ring with readPtr := k } := rfl
@[simp] theorem State.moveReadPtr_inputs : (s.moveReadPtr k).inputs = s.inputs := rfl
@[simp] theorem State.moveReadPtr_checks : (s.moveReadPtr k).checks = s.checks := rfl
@[simp] theorem State.moveReadPtr_creep : (s.moveReadPtr k).creep = s.creep := rfl
@[simp] theorem State.moveReadPtr_segPorts : (s.moveReadPtr k).segPorts = s.segPorts := rfl
@[simp] theorem State.moveReadPtr_clPort : (s.moveReadPtr k).clPort = s.clPort := rfl
@[simp] theorem State.moveReadPtr_paths : (s.moveReadPtr k).paths = s.paths := rfl
@[simp] theorem State.moveReadPtr_inFlight : (s.moveReadPtr k).inFlight = s.inFlight := rfl
@[simp] theorem State.moveReadPtr_settings : (s.moveReadPtr k).settings = s.settings := rfl
@[simp] theorem State.moveReadPtr_requests : (s.moveReadPtr k).requests = s.requests := rfl
@[simp] theorem State.moveReadPtr_cl : (s.moveReadPtr k).cl = s.cl := rfl
@[simp] theorem State.moveReadPtr_resets : (s.moveReadPtr k).resets = s.resets := rfl
@[simp] theorem State.moveReadPtr_freeCount : (s.moveReadPtr k).freeCount = s.freeCount := rfl
@[simp] theorem State.moveReadPtr_pending : (s.moveReadPtr k).pending = s.pending := rfl

end

section
variable (s : State)

@[simp] theorem State.advanceClock_timer : (s.advanceClock).timer = { s.timer with timebase := s.timer.timebase + 1, phase := s.timer.phase + 1 } := rfl
@[simp] theorem State.advanceClock_tables : (s.advanceClock).tables = s.tables := rfl
@[simp] theorem State.advanceClock_axisRec : (s.advanceClock).axisRec = s.axisRec := rfl
@[simp] theorem State.advanceClock_pairRec : (s.advanceClock).pairRec = s.pairRec := rfl
@[simp] theorem State.advanceClock_waypoints : (s.advanceClock).waypoints = s.waypoints := rfl
@[simp] theorem State.advanceClock_permits : (s.advanceClock).permits = s.permits := rfl
@[simp] theorem State.advanceClock_brk : (s.advanceClock).brk = s.brk := rfl
@[simp] theorem State.advanceClock_zones : (s.advanceClock).zones = s.zones := rfl
@[simp] theorem State.advanceClock_egress : (s.advanceClock).egress = s.egress := rfl
@[simp] theorem State.advanceClock_ring : (s.advanceClock).ring = s.ring := rfl
@[simp] theorem State.advanceClock_inputs : (s.advanceClock).inputs = s.inputs := rfl
@[simp] theorem State.advanceClock_checks : (s.advanceClock).checks = s.checks := rfl
@[simp] theorem State.advanceClock_creep : (s.advanceClock).creep = s.creep := rfl
@[simp] theorem State.advanceClock_segPorts : (s.advanceClock).segPorts = s.segPorts := rfl
@[simp] theorem State.advanceClock_clPort : (s.advanceClock).clPort = s.clPort := rfl
@[simp] theorem State.advanceClock_paths : (s.advanceClock).paths = s.paths := rfl
@[simp] theorem State.advanceClock_inFlight : (s.advanceClock).inFlight = s.inFlight := rfl
@[simp] theorem State.advanceClock_settings : (s.advanceClock).settings = s.settings := rfl
@[simp] theorem State.advanceClock_requests : (s.advanceClock).requests = s.requests := rfl
@[simp] theorem State.advanceClock_cl : (s.advanceClock).cl = s.cl := rfl
@[simp] theorem State.advanceClock_resets : (s.advanceClock).resets = s.resets := rfl
@[simp] theorem State.advanceClock_freeCount : (s.advanceClock).freeCount = s.freeCount := rfl
@[simp] theorem State.advanceClock_pending : (s.advanceClock).pending = s.pending := rfl

end

section
variable (s : State) (b : ResetBlock)

@[simp] theorem State.doneReset_timer : (s.doneReset b).timer = s.timer := rfl
@[simp] theorem State.doneReset_tables : (s.doneReset b).tables = s.tables := rfl
@[simp] theorem State.doneReset_axisRec : (s.doneReset b).axisRec = s.axisRec := rfl
@[simp] theorem State.doneReset_pairRec : (s.doneReset b).pairRec = s.pairRec := rfl
@[simp] theorem State.doneReset_waypoints : (s.doneReset b).waypoints = s.waypoints := rfl
@[simp] theorem State.doneReset_permits : (s.doneReset b).permits = s.permits := rfl
@[simp] theorem State.doneReset_brk : (s.doneReset b).brk = s.brk := rfl
@[simp] theorem State.doneReset_zones : (s.doneReset b).zones = s.zones := rfl
@[simp] theorem State.doneReset_egress : (s.doneReset b).egress = s.egress := rfl
@[simp] theorem State.doneReset_ring : (s.doneReset b).ring = s.ring := rfl
@[simp] theorem State.doneReset_inputs : (s.doneReset b).inputs = s.inputs := rfl
@[simp] theorem State.doneReset_checks : (s.doneReset b).checks = s.checks := rfl
@[simp] theorem State.doneReset_creep : (s.doneReset b).creep = s.creep := rfl
@[simp] theorem State.doneReset_segPorts : (s.doneReset b).segPorts = s.segPorts := rfl
@[simp] theorem State.doneReset_clPort : (s.doneReset b).clPort = s.clPort := rfl
@[simp] theorem State.doneReset_paths : (s.doneReset b).paths = s.paths := rfl
@[simp] theorem State.doneReset_inFlight : (s.doneReset b).inFlight = s.inFlight := rfl
@[simp] theorem State.doneReset_settings : (s.doneReset b).settings = s.settings := rfl
@[simp] theorem State.doneReset_requests : (s.doneReset b).requests = s.requests := rfl
@[simp] theorem State.doneReset_cl : (s.doneReset b).cl = s.cl := rfl
@[simp] theorem State.doneReset_resets : (s.doneReset b).resets = s.resets.erase b := rfl
@[simp] theorem State.doneReset_freeCount : (s.doneReset b).freeCount = s.freeCount := rfl
@[simp] theorem State.doneReset_pending : (s.doneReset b).pending = s.pending := rfl

end

section
variable (s : State)

@[simp] theorem State.beginReset_timer : (s.beginReset).timer = s.timer := rfl
@[simp] theorem State.beginReset_tables : (s.beginReset).tables = s.tables := rfl
@[simp] theorem State.beginReset_axisRec : (s.beginReset).axisRec = s.axisRec := rfl
@[simp] theorem State.beginReset_pairRec : (s.beginReset).pairRec = s.pairRec := rfl
@[simp] theorem State.beginReset_waypoints : (s.beginReset).waypoints = s.waypoints := rfl
@[simp] theorem State.beginReset_permits : (s.beginReset).permits = s.permits := rfl
@[simp] theorem State.beginReset_brk : (s.beginReset).brk = s.brk := rfl
@[simp] theorem State.beginReset_zones : (s.beginReset).zones = s.zones := rfl
@[simp] theorem State.beginReset_egress : (s.beginReset).egress = s.egress := rfl
@[simp] theorem State.beginReset_ring : (s.beginReset).ring = s.ring := rfl
@[simp] theorem State.beginReset_inputs : (s.beginReset).inputs = s.inputs := rfl
@[simp] theorem State.beginReset_checks : (s.beginReset).checks = s.checks := rfl
@[simp] theorem State.beginReset_creep : (s.beginReset).creep = s.creep := rfl
@[simp] theorem State.beginReset_segPorts : (s.beginReset).segPorts = s.segPorts := rfl
@[simp] theorem State.beginReset_clPort : (s.beginReset).clPort = s.clPort := rfl
@[simp] theorem State.beginReset_paths : (s.beginReset).paths = s.paths := rfl
@[simp] theorem State.beginReset_inFlight : (s.beginReset).inFlight = s.inFlight := rfl
@[simp] theorem State.beginReset_settings : (s.beginReset).settings = s.settings := rfl
@[simp] theorem State.beginReset_requests : (s.beginReset).requests = [] := rfl
@[simp] theorem State.beginReset_cl : (s.beginReset).cl = s.cl := rfl
@[simp] theorem State.beginReset_resets : (s.beginReset).resets = ResetBlock.all := rfl
@[simp] theorem State.beginReset_freeCount : (s.beginReset).freeCount = s.freeCount := rfl
@[simp] theorem State.beginReset_pending : (s.beginReset).pending = s.pending := rfl

end

section
variable (s : State)

@[simp] theorem State.resetTables_timer : (s.resetTables).timer = s.timer := rfl
@[simp] theorem State.resetTables_tables : (s.resetTables).tables = { s.tables.clearErrors with scrubPos := 0 } := rfl
@[simp] theorem State.resetTables_axisRec : (s.resetTables).axisRec = s.axisRec := rfl
@[simp] theorem State.resetTables_pairRec : (s.resetTables).pairRec = s.pairRec := rfl
@[simp] theorem State.resetTables_waypoints : (s.resetTables).waypoints = s.waypoints := rfl
@[simp] theorem State.resetTables_permits : (s.resetTables).permits = s.permits := rfl
@[simp] theorem State.resetTables_brk : (s.resetTables).brk = s.brk := rfl
@[simp] theorem State.resetTables_zones : (s.resetTables).zones = s.zones := rfl
@[simp] theorem State.resetTables_egress : (s.resetTables).egress = s.egress := rfl
@[simp] theorem State.resetTables_ring : (s.resetTables).ring = s.ring := rfl
@[simp] theorem State.resetTables_inputs : (s.resetTables).inputs = s.inputs := rfl
@[simp] theorem State.resetTables_checks : (s.resetTables).checks = s.checks := rfl
@[simp] theorem State.resetTables_creep : (s.resetTables).creep = s.creep := rfl
@[simp] theorem State.resetTables_segPorts : (s.resetTables).segPorts = s.segPorts := rfl
@[simp] theorem State.resetTables_clPort : (s.resetTables).clPort = s.clPort := rfl
@[simp] theorem State.resetTables_paths : (s.resetTables).paths = s.paths := rfl
@[simp] theorem State.resetTables_inFlight : (s.resetTables).inFlight = s.inFlight := rfl
@[simp] theorem State.resetTables_settings : (s.resetTables).settings = s.settings := rfl
@[simp] theorem State.resetTables_requests : (s.resetTables).requests = s.requests := rfl
@[simp] theorem State.resetTables_cl : (s.resetTables).cl = s.cl := rfl
@[simp] theorem State.resetTables_resets : (s.resetTables).resets = s.resets := rfl
@[simp] theorem State.resetTables_freeCount : (s.resetTables).freeCount = s.freeCount := rfl
@[simp] theorem State.resetTables_pending : (s.resetTables).pending = s.pending := rfl

end

section
variable (s : State)

@[simp] theorem State.resetTimer_timer : (s.resetTimer).timer = { s.timer with cycle := 0, phase := 0 } := rfl
@[simp] theorem State.resetTimer_tables : (s.resetTimer).tables = s.tables := rfl
@[simp] theorem State.resetTimer_axisRec : (s.resetTimer).axisRec = s.axisRec := rfl
@[simp] theorem State.resetTimer_pairRec : (s.resetTimer).pairRec = s.pairRec := rfl
@[simp] theorem State.resetTimer_waypoints : (s.resetTimer).waypoints = s.waypoints := rfl
@[simp] theorem State.resetTimer_permits : (s.resetTimer).permits = s.permits := rfl
@[simp] theorem State.resetTimer_brk : (s.resetTimer).brk = s.brk := rfl
@[simp] theorem State.resetTimer_zones : (s.resetTimer).zones = s.zones := rfl
@[simp] theorem State.resetTimer_egress :
    (s.resetTimer).egress = { s.egress with beacon := Vector.replicate 4 true } := rfl
@[simp] theorem State.resetTimer_ring : (s.resetTimer).ring = s.ring := rfl
@[simp] theorem State.resetTimer_inputs : (s.resetTimer).inputs = s.inputs := rfl
@[simp] theorem State.resetTimer_checks : (s.resetTimer).checks = s.checks := rfl
@[simp] theorem State.resetTimer_creep : (s.resetTimer).creep = s.creep := rfl
@[simp] theorem State.resetTimer_segPorts : (s.resetTimer).segPorts = s.segPorts := rfl
@[simp] theorem State.resetTimer_clPort : (s.resetTimer).clPort = s.clPort := rfl
@[simp] theorem State.resetTimer_paths : (s.resetTimer).paths = s.paths := rfl
@[simp] theorem State.resetTimer_inFlight : (s.resetTimer).inFlight = s.inFlight := rfl
@[simp] theorem State.resetTimer_settings : (s.resetTimer).settings = s.settings := rfl
@[simp] theorem State.resetTimer_requests : (s.resetTimer).requests = s.requests := rfl
@[simp] theorem State.resetTimer_cl : (s.resetTimer).cl = s.cl := rfl
@[simp] theorem State.resetTimer_resets : (s.resetTimer).resets = s.resets := rfl
@[simp] theorem State.resetTimer_freeCount : (s.resetTimer).freeCount = s.freeCount := rfl
@[simp] theorem State.resetTimer_pending : (s.resetTimer).pending = s.pending := rfl

end

section
variable (s : State)

@[simp] theorem State.resetMonitor_timer : (s.resetMonitor).timer = s.timer := rfl
@[simp] theorem State.resetMonitor_tables : (s.resetMonitor).tables = s.tables := rfl
@[simp] theorem State.resetMonitor_axisRec : (s.resetMonitor).axisRec = s.axisRec.map AxisRecord.monitorReset := rfl
@[simp] theorem State.resetMonitor_pairRec : (s.resetMonitor).pairRec = Vector.replicate 32 .reset := rfl
@[simp] theorem State.resetMonitor_waypoints : (s.resetMonitor).waypoints = Vector.replicate 64 ⟨none, none⟩ := rfl
@[simp] theorem State.resetMonitor_permits : (s.resetMonitor).permits = s.permits := rfl
@[simp] theorem State.resetMonitor_brk : (s.resetMonitor).brk = s.brk := rfl
@[simp] theorem State.resetMonitor_zones : (s.resetMonitor).zones = s.zones := rfl
@[simp] theorem State.resetMonitor_egress : (s.resetMonitor).egress = s.egress := rfl
@[simp] theorem State.resetMonitor_ring : (s.resetMonitor).ring = s.ring := rfl
@[simp] theorem State.resetMonitor_inputs : (s.resetMonitor).inputs = s.inputs := rfl
@[simp] theorem State.resetMonitor_checks : (s.resetMonitor).checks = s.checks := rfl
@[simp] theorem State.resetMonitor_creep : (s.resetMonitor).creep = s.creep := rfl
@[simp] theorem State.resetMonitor_segPorts : (s.resetMonitor).segPorts = s.segPorts := rfl
@[simp] theorem State.resetMonitor_clPort : (s.resetMonitor).clPort = s.clPort := rfl
@[simp] theorem State.resetMonitor_paths : (s.resetMonitor).paths = s.paths := rfl
@[simp] theorem State.resetMonitor_inFlight : (s.resetMonitor).inFlight = s.inFlight := rfl
@[simp] theorem State.resetMonitor_settings : (s.resetMonitor).settings = s.settings := rfl
@[simp] theorem State.resetMonitor_requests : (s.resetMonitor).requests = s.requests := rfl
@[simp] theorem State.resetMonitor_cl : (s.resetMonitor).cl = { s.cl with forward := Vector.replicate 4 [] } := rfl
@[simp] theorem State.resetMonitor_resets : (s.resetMonitor).resets = s.resets := rfl
@[simp] theorem State.resetMonitor_freeCount : (s.resetMonitor).freeCount = s.freeCount := rfl
@[simp] theorem State.resetMonitor_pending : (s.resetMonitor).pending = s.pending := rfl

end

section
variable (s : State)

@[simp] theorem State.resetAdmission_timer : (s.resetAdmission).timer = s.timer := rfl
@[simp] theorem State.resetAdmission_tables : (s.resetAdmission).tables = s.tables := rfl
@[simp] theorem State.resetAdmission_axisRec :
    (s.resetAdmission).axisRec = s.axisRec.map (fun r => { r with clampCount := 0, refusalReported := false }) := rfl
@[simp] theorem State.resetAdmission_pairRec : (s.resetAdmission).pairRec = s.pairRec := rfl
@[simp] theorem State.resetAdmission_waypoints : (s.resetAdmission).waypoints = s.waypoints := rfl
@[simp] theorem State.resetAdmission_permits : (s.resetAdmission).permits = s.permits := rfl
@[simp] theorem State.resetAdmission_brk : (s.resetAdmission).brk = s.brk := rfl
@[simp] theorem State.resetAdmission_zones : (s.resetAdmission).zones = s.zones := rfl
@[simp] theorem State.resetAdmission_egress :
    (s.resetAdmission).egress = { s.egress with setpoints := Vector.replicate 4 [] } := rfl
@[simp] theorem State.resetAdmission_ring : (s.resetAdmission).ring = s.ring := rfl
@[simp] theorem State.resetAdmission_inputs : (s.resetAdmission).inputs = s.inputs := rfl
@[simp] theorem State.resetAdmission_checks : (s.resetAdmission).checks = s.checks := rfl
@[simp] theorem State.resetAdmission_creep : (s.resetAdmission).creep = s.creep := rfl
@[simp] theorem State.resetAdmission_segPorts : (s.resetAdmission).segPorts = s.segPorts := rfl
@[simp] theorem State.resetAdmission_clPort : (s.resetAdmission).clPort = s.clPort := rfl
@[simp] theorem State.resetAdmission_paths : (s.resetAdmission).paths = s.paths := rfl
@[simp] theorem State.resetAdmission_inFlight : (s.resetAdmission).inFlight = s.inFlight := rfl
@[simp] theorem State.resetAdmission_settings : (s.resetAdmission).settings = s.settings := rfl
@[simp] theorem State.resetAdmission_requests : (s.resetAdmission).requests = s.requests := rfl
@[simp] theorem State.resetAdmission_cl : (s.resetAdmission).cl = s.cl := rfl
@[simp] theorem State.resetAdmission_resets : (s.resetAdmission).resets = s.resets := rfl
@[simp] theorem State.resetAdmission_freeCount : (s.resetAdmission).freeCount = s.freeCount := rfl
@[simp] theorem State.resetAdmission_pending : (s.resetAdmission).pending = s.pending := rfl

end

section
variable (s : State)

@[simp] theorem State.resetPermits_timer : (s.resetPermits).timer = s.timer := rfl
@[simp] theorem State.resetPermits_tables : (s.resetPermits).tables = s.tables := rfl
@[simp] theorem State.resetPermits_axisRec : (s.resetPermits).axisRec = s.axisRec := rfl
@[simp] theorem State.resetPermits_pairRec : (s.resetPermits).pairRec = s.pairRec := rfl
@[simp] theorem State.resetPermits_waypoints : (s.resetPermits).waypoints = s.waypoints := rfl
@[simp] theorem State.resetPermits_permits : (s.resetPermits).permits = Vector.replicate 8 .reset := rfl
@[simp] theorem State.resetPermits_brk : (s.resetPermits).brk = Vector.replicate 8 false := rfl
@[simp] theorem State.resetPermits_zones : (s.resetPermits).zones = s.zones := rfl
@[simp] theorem State.resetPermits_egress : (s.resetPermits).egress = s.egress := rfl
@[simp] theorem State.resetPermits_ring : (s.resetPermits).ring = s.ring := rfl
@[simp] theorem State.resetPermits_inputs : (s.resetPermits).inputs = s.inputs := rfl
@[simp] theorem State.resetPermits_checks : (s.resetPermits).checks = s.checks := rfl
@[simp] theorem State.resetPermits_creep : (s.resetPermits).creep = s.creep := rfl
@[simp] theorem State.resetPermits_segPorts : (s.resetPermits).segPorts = s.segPorts := rfl
@[simp] theorem State.resetPermits_clPort : (s.resetPermits).clPort = s.clPort := rfl
@[simp] theorem State.resetPermits_paths : (s.resetPermits).paths = s.paths := rfl
@[simp] theorem State.resetPermits_inFlight : (s.resetPermits).inFlight = s.inFlight := rfl
@[simp] theorem State.resetPermits_settings : (s.resetPermits).settings = s.settings := rfl
@[simp] theorem State.resetPermits_requests : (s.resetPermits).requests = s.requests := rfl
@[simp] theorem State.resetPermits_cl : (s.resetPermits).cl = s.cl := rfl
@[simp] theorem State.resetPermits_resets : (s.resetPermits).resets = s.resets := rfl
@[simp] theorem State.resetPermits_freeCount : (s.resetPermits).freeCount = s.freeCount := rfl
@[simp] theorem State.resetPermits_pending : (s.resetPermits).pending = s.pending := rfl

end

section
variable (s : State)

@[simp] theorem State.resetZones_timer : (s.resetZones).timer = s.timer := rfl
@[simp] theorem State.resetZones_tables : (s.resetZones).tables = s.tables := rfl
@[simp] theorem State.resetZones_axisRec : (s.resetZones).axisRec = s.axisRec := rfl
@[simp] theorem State.resetZones_pairRec : (s.resetZones).pairRec = s.pairRec := rfl
@[simp] theorem State.resetZones_waypoints : (s.resetZones).waypoints = s.waypoints := rfl
@[simp] theorem State.resetZones_permits : (s.resetZones).permits = s.permits := rfl
@[simp] theorem State.resetZones_brk : (s.resetZones).brk = s.brk := rfl
@[simp] theorem State.resetZones_zones : (s.resetZones).zones = Vector.replicate 16 none := rfl
@[simp] theorem State.resetZones_egress : (s.resetZones).egress = s.egress := rfl
@[simp] theorem State.resetZones_ring : (s.resetZones).ring = s.ring := rfl
@[simp] theorem State.resetZones_inputs : (s.resetZones).inputs = s.inputs := rfl
@[simp] theorem State.resetZones_checks : (s.resetZones).checks = s.checks := rfl
@[simp] theorem State.resetZones_creep : (s.resetZones).creep = s.creep := rfl
@[simp] theorem State.resetZones_segPorts : (s.resetZones).segPorts = s.segPorts := rfl
@[simp] theorem State.resetZones_clPort : (s.resetZones).clPort = s.clPort := rfl
@[simp] theorem State.resetZones_paths : (s.resetZones).paths = s.paths := rfl
@[simp] theorem State.resetZones_inFlight : (s.resetZones).inFlight = s.inFlight := rfl
@[simp] theorem State.resetZones_settings : (s.resetZones).settings = s.settings := rfl
@[simp] theorem State.resetZones_requests : (s.resetZones).requests = s.requests := rfl
@[simp] theorem State.resetZones_cl : (s.resetZones).cl = s.cl := rfl
@[simp] theorem State.resetZones_resets : (s.resetZones).resets = s.resets := rfl
@[simp] theorem State.resetZones_freeCount : (s.resetZones).freeCount = s.freeCount := rfl
@[simp] theorem State.resetZones_pending : (s.resetZones).pending = s.pending := rfl

end

section
variable (s : State)

@[simp] theorem State.resetChecks_timer : (s.resetChecks).timer = s.timer := rfl
@[simp] theorem State.resetChecks_tables : (s.resetChecks).tables = s.tables := rfl
@[simp] theorem State.resetChecks_axisRec :
    (s.resetChecks).axisRec = s.axisRec.map (fun r => { r with checked := false }) := rfl
@[simp] theorem State.resetChecks_pairRec : (s.resetChecks).pairRec = s.pairRec := rfl
@[simp] theorem State.resetChecks_waypoints : (s.resetChecks).waypoints = s.waypoints := rfl
@[simp] theorem State.resetChecks_permits : (s.resetChecks).permits = s.permits := rfl
@[simp] theorem State.resetChecks_brk : (s.resetChecks).brk = s.brk := rfl
@[simp] theorem State.resetChecks_zones : (s.resetChecks).zones = s.zones := rfl
@[simp] theorem State.resetChecks_egress :
    (s.resetChecks).egress = { s.egress with checkSlot := Vector.replicate 4 none } := rfl
@[simp] theorem State.resetChecks_ring : (s.resetChecks).ring = s.ring := rfl
@[simp] theorem State.resetChecks_inputs : (s.resetChecks).inputs = s.inputs := rfl
@[simp] theorem State.resetChecks_checks :
    (s.resetChecks).checks = s.checks.map (fun r => { LinkCheck.reset with phase := r.phase }) := rfl
@[simp] theorem State.resetChecks_creep : (s.resetChecks).creep = Vector.replicate 8 .reset := rfl
@[simp] theorem State.resetChecks_segPorts : (s.resetChecks).segPorts = s.segPorts := rfl
@[simp] theorem State.resetChecks_clPort : (s.resetChecks).clPort = s.clPort := rfl
@[simp] theorem State.resetChecks_paths : (s.resetChecks).paths = s.paths := rfl
@[simp] theorem State.resetChecks_inFlight : (s.resetChecks).inFlight = s.inFlight := rfl
@[simp] theorem State.resetChecks_settings : (s.resetChecks).settings = s.settings := rfl
@[simp] theorem State.resetChecks_requests : (s.resetChecks).requests = s.requests := rfl
@[simp] theorem State.resetChecks_cl : (s.resetChecks).cl = s.cl := rfl
@[simp] theorem State.resetChecks_resets : (s.resetChecks).resets = s.resets := rfl
@[simp] theorem State.resetChecks_freeCount : (s.resetChecks).freeCount = s.freeCount := rfl
@[simp] theorem State.resetChecks_pending : (s.resetChecks).pending = s.pending := rfl

end

section
variable (s : State)

@[simp] theorem State.resetManagement_timer : (s.resetManagement).timer = s.timer := rfl
@[simp] theorem State.resetManagement_tables : (s.resetManagement).tables = s.tables := rfl
@[simp] theorem State.resetManagement_axisRec : (s.resetManagement).axisRec = s.axisRec := rfl
@[simp] theorem State.resetManagement_pairRec : (s.resetManagement).pairRec = s.pairRec := rfl
@[simp] theorem State.resetManagement_waypoints : (s.resetManagement).waypoints = s.waypoints := rfl
@[simp] theorem State.resetManagement_permits : (s.resetManagement).permits = s.permits := rfl
@[simp] theorem State.resetManagement_brk : (s.resetManagement).brk = s.brk := rfl
@[simp] theorem State.resetManagement_zones : (s.resetManagement).zones = s.zones := rfl
@[simp] theorem State.resetManagement_egress : (s.resetManagement).egress = s.egress := rfl
@[simp] theorem State.resetManagement_ring : (s.resetManagement).ring = s.ring := rfl
@[simp] theorem State.resetManagement_inputs : (s.resetManagement).inputs = s.inputs := rfl
@[simp] theorem State.resetManagement_checks : (s.resetManagement).checks = s.checks := rfl
@[simp] theorem State.resetManagement_creep : (s.resetManagement).creep = s.creep := rfl
@[simp] theorem State.resetManagement_segPorts : (s.resetManagement).segPorts = s.segPorts := rfl
@[simp] theorem State.resetManagement_clPort : (s.resetManagement).clPort = s.clPort := rfl
@[simp] theorem State.resetManagement_paths : (s.resetManagement).paths = s.paths := rfl
@[simp] theorem State.resetManagement_inFlight : (s.resetManagement).inFlight = s.inFlight := rfl
@[simp] theorem State.resetManagement_settings : (s.resetManagement).settings = s.settings := rfl
@[simp] theorem State.resetManagement_requests : (s.resetManagement).requests = s.requests := rfl
@[simp] theorem State.resetManagement_cl :
    (s.resetManagement).cl = { s.cl with reports := [], overrunTotal := 0 } := rfl
@[simp] theorem State.resetManagement_resets : (s.resetManagement).resets = s.resets := rfl
@[simp] theorem State.resetManagement_freeCount : (s.resetManagement).freeCount = s.freeCount := rfl
@[simp] theorem State.resetManagement_pending : (s.resetManagement).pending = s.pending := rfl

end

section
variable (s : State)

@[simp] theorem State.resetScheduler_timer : (s.resetScheduler).timer = s.timer := rfl
@[simp] theorem State.resetScheduler_tables : (s.resetScheduler).tables = s.tables := rfl
@[simp] theorem State.resetScheduler_axisRec : (s.resetScheduler).axisRec = s.axisRec := rfl
@[simp] theorem State.resetScheduler_pairRec : (s.resetScheduler).pairRec = s.pairRec := rfl
@[simp] theorem State.resetScheduler_waypoints : (s.resetScheduler).waypoints = s.waypoints := rfl
@[simp] theorem State.resetScheduler_permits : (s.resetScheduler).permits = s.permits := rfl
@[simp] theorem State.resetScheduler_brk : (s.resetScheduler).brk = s.brk := rfl
@[simp] theorem State.resetScheduler_zones : (s.resetScheduler).zones = s.zones := rfl
@[simp] theorem State.resetScheduler_egress : (s.resetScheduler).egress = s.egress := rfl
@[simp] theorem State.resetScheduler_ring : (s.resetScheduler).ring = s.ring := rfl
@[simp] theorem State.resetScheduler_inputs : (s.resetScheduler).inputs = s.inputs := rfl
@[simp] theorem State.resetScheduler_checks : (s.resetScheduler).checks = s.checks := rfl
@[simp] theorem State.resetScheduler_creep : (s.resetScheduler).creep = s.creep := rfl
@[simp] theorem State.resetScheduler_segPorts : (s.resetScheduler).segPorts = s.segPorts := rfl
@[simp] theorem State.resetScheduler_clPort : (s.resetScheduler).clPort = s.clPort := rfl
@[simp] theorem State.resetScheduler_paths : (s.resetScheduler).paths = s.paths := rfl
@[simp] theorem State.resetScheduler_inFlight : (s.resetScheduler).inFlight = s.inFlight := rfl
@[simp] theorem State.resetScheduler_settings : (s.resetScheduler).settings = s.settings := rfl
@[simp] theorem State.resetScheduler_requests : (s.resetScheduler).requests = s.requests := rfl
@[simp] theorem State.resetScheduler_cl :
    (s.resetScheduler).cl = { s.cl with schedule := { s.cl.schedule with loadPending := false, pointer := 0 } } := rfl
@[simp] theorem State.resetScheduler_resets : (s.resetScheduler).resets = s.resets := rfl
@[simp] theorem State.resetScheduler_freeCount : (s.resetScheduler).freeCount = s.freeCount := rfl
@[simp] theorem State.resetScheduler_pending : (s.resetScheduler).pending = s.pending := rfl

end

end Sys2Proof.Machine
end

