-- ==== Sys2Proof/Laws/Closed.lean ====
section
/-! SUPPORT. Everything a checked read, a trip and an egress choice can do, said once: a property kept by the
primitive changes below is kept by the shared operations built from them. -/

namespace Sys2Proof.Machine

/-- The property is kept by the change. -/
def Keeps (P : State → Prop) (f : State → State) : Prop := ∀ s, P s → P (f s)

/-- The property is kept by every primitive change that a checked read or a trip can make. -/
structure TripClosed (P : State → Prop) : Prop where
  post : ∀ b, Keeps P (State.post b)
  corrected : ∀ e s, s.tables.outcome e = .single → P s → P (s.modTables (TableStore.noteCorrected e))
  poisoned : ∀ e s, s.tables.outcome e = .uncorrectable → P s → P (s.modTables (TableStore.notePoisoned e))
  close : ∀ sg, Keeps P (State.closeCheck sg)
  drop : ∀ a, Keeps P (State.dropAxisEntries a)
  stop : ∀ (sg : SegIx) a, Keeps P (State.modEgress fun e => { e with stopSet := upd e.stopSet sg (insertAxis a) })
  purge : ∀ g, Keeps P (State.purgeGroup g)
  creepEnd : ∀ g st (v : CreepRun → Verdict), st ≠ .running →
    Keeps P (State.modCreep g fun r => { r with state := st, verdict := v r })
  record : ∀ r l m, Keeps P (fun s => { s with ring := s.ring.push (s.tripRecord r l m) })
  send : ∀ r, Keeps P (State.send .tripUnit r)
  toTripped : ∀ (r : TripRequest) s, s.permitState r.group ≠ .tripped → P s →
    P ((s.modPermit r.group (·.toTripped r)).setBrk r.group false)
  further : ∀ g s, s.permitState g = .tripped → P s →
    P (s.modPermit g fun p => { p with further := satInc p.further })
  draw : Keeps P (fun s => { s with freeCount := s.freeCount + 1 })

theorem Keeps.comp {P : State → Prop} {f g : State → State} (hf : Keeps P f) (hg : Keeps P g) :
    Keeps P (fun s => f (g s)) := fun s hs => hf _ (hg s hs)

theorem keeps_foldl {P : State → Prop} {α : Type} (f : State → α → State) (h : ∀ s a, P s → P (f s a)) :
    ∀ (l : List α) (s : State), P s → P (l.foldl f s) := by
  intro l
  induction l with
  | nil => intro s hs; exact hs
  | cons a l ih => intro s hs; exact ih _ (h s a hs)

section
variable {P : State → Prop} (h : TripClosed P)
include h

theorem TripClosed.inFreeOrder {α : Type} (l : List α) (s : State) (hs : P s) : P (s.inFreeOrder l).2 := by
  match l with
  | [] => exact hs
  | [_] => exact hs
  | _ :: _ :: _ => exact h.draw s hs

theorem TripClosed.pick {α : Type} (l : List α) (s : State) (hs : P s) : P (s.pick l).2 := by
  match l with
  | [] => exact hs
  | [_] => exact hs
  | _ :: _ :: _ => exact h.draw s hs

theorem TripClosed.endCheck (sg : SegIx) (o : CheckOutcome) (x : Option (Word16 × Mounting)) :
    Keeps P (State.endCheck sg o x) := fun s hs => h.post _ _ (h.close sg s hs)

theorem TripClosed.abortChecks (q : AxisIx → Bool) (segs : List SegIx) : Keeps P (State.abortChecks q segs) := by
  intro s hs
  refine keeps_foldl _ ?_ segs s hs
  intro s sg hs
  split
  · exact h.endCheck _ _ _ s hs
  · exact hs

variable {trip : TripRequest → State → State} (ht : ∀ r, Keeps P (trip r))
include ht

omit h in
theorem TripClosed.tableFault (e : EntryRef) (g : Option GroupIx) : Keeps P (State.tableFault trip e g) := by
  intro s hs
  cases g with
  | some g => exact ht _ s hs
  | none => exact hs

omit ht in
theorem TripClosed.afterPoison (e : EntryRef) : Keeps P (State.afterPoison e) := by
  intro s hs
  cases e with
  | axis a => exact h.drop a _ (h.abortChecks _ _ _ hs)
  | group g => exact hs
  | pair p => exact hs
  | extent x => exact hs

theorem TripClosed.poisonEntry (b : ReadingBlock) (e : EntryRef) (s : State) (he : s.tables.outcome e = .uncorrectable)
    (hs : P s) : P (s.poisonEntry trip b e) :=
  h.afterPoison e _ (TripClosed.tableFault ht e _ _ (h.post _ _ (h.poisoned e s he hs)))

theorem TripClosed.touchWith (b : ReadingBlock) (e : EntryRef) : Keeps P (State.touchWith trip b e) := by
  intro s hs
  unfold State.touchWith
  split
  · exact hs
  · exact hs
  · next he => exact h.post _ _ (h.corrected e s he hs)
  · next he => exact h.poisonEntry ht b e s he hs

theorem TripClosed.oweStop (s : State) (a : AxisIx) (hs : P s) : P (s.oweStop trip a) := by
  have h1 := h.touchWith ht .trip (.axis a) s hs
  unfold State.oweStop
  simp only
  split
  · exact h.stop _ _ _ h1
  · exact h1

theorem TripClosed.endCreep (g : GroupIx) (st : CreepState) (v : Stored GroupFields → CreepRun → Verdict)
    (why : Option CreepAbort) (hst : st ≠ .running) : Keeps P (State.endCreep trip g st v why) := fun s hs =>
  h.post _ _ (h.creepEnd g st _ hst _ (h.touchWith ht .check (.group g) s hs))

theorem TripClosed.abortCreep (g : GroupIx) (why : CreepAbort) : Keeps P (State.abortCreep trip g why) := by
  intro s hs
  unfold State.abortCreep
  split
  · exact h.endCreep ht g .aborted _ _ (by decide) s hs
  · exact hs

omit ht in
theorem TripClosed.recordTrip (r : TripRequest) (left : PermitState) (m : List AxisIx) :
    Keeps P (State.recordTrip r left m) := fun s hs => h.post _ _ (h.record r left m s hs)

omit ht in
theorem TripClosed.propagate (r : TripRequest) (targets : List GroupIx) :
    Keeps P (fun s => s.propagate r targets) := by
  intro s hs
  simp only [State.propagate]
  split
  · exact hs
  · exact keeps_foldl _ (fun s _ hs => h.send _ s hs) _ _ hs

theorem TripClosed.tripUnitWork (r : TripRequest) (left : PermitState) : Keeps P (State.tripUnitWork trip r left) := by
  intro s hs
  have h1 := h.touchWith ht .trip (.group r.group) s hs
  exact h.propagate r _ _ (h.recordTrip r left _ _ (h.abortCreep ht r.group _ _ (h.purge r.group _
    (keeps_foldl (fun s a => s.oweStop trip a) (fun s a => h.oweStop ht s a) _ _ h1))))

theorem TripClosed.transition (r : TripRequest) (s : State) (hn : s.permitState r.group ≠ .tripped) (hs : P s) :
    P (State.transition trip r s) := by
  unfold State.transition
  refine keeps_foldl _ ?_ _ _ (h.inFreeOrder _ _ (h.toTripped r s hn hs))
  intro s job hs
  cases job with
  | some sg => exact h.abortChecks _ _ s hs
  | none => exact h.tripUnitWork ht r _ s hs

theorem TripClosed.tripWith (r : TripRequest) : Keeps P (State.tripWith trip r) := by
  intro s hs
  unfold State.tripWith
  split
  · next ht => exact h.further r.group s ht hs
  · next hd =>
    split
    · exact h.transition ht r s (by rw [hd]; decide) hs
    · exact hs
  · next hp => exact h.transition ht r s (by rw [hp]; decide) hs
  · next hl => exact h.transition ht r s (by rw [hl]; decide) hs

end

section
variable {P : State → Prop} (h : TripClosed P)
include h

theorem TripClosed.takeTrip : ∀ n r, Keeps P (State.takeTrip n r) := by
  intro n
  induction n with
  | zero => intro r s hs; exact hs
  | succ n ih => intro r; exact h.tripWith ih r

theorem TripClosed.trip (r : TripRequest) : Keeps P (State.trip r) := h.takeTrip tripDepth r

theorem TripClosed.touch (b : ReadingBlock) (e : EntryRef) : Keeps P (State.touch b e) :=
  h.touchWith h.trip b e

theorem TripClosed.touchAll (b : ReadingBlock) (es : List EntryRef) : Keeps P (State.touchAll b es) :=
  fun s hs => keeps_foldl _ (fun s e hs => h.touch b e s hs) es s hs

end

/-- The property is kept by every primitive change that an egress choice can make. -/
structure EgressClosed (P : State → Prop) : Prop extends TripClosed P where
  transmit : ∀ sg f, Keeps P (State.transmit sg f)
  unstop : ∀ (sg : SegIx) a, Keeps P (State.modEgress fun e => { e with stopSet := upd e.stopSet sg (·.filter (· != a)) })
  unbeacon : ∀ sg : SegIx, Keeps P (State.modEgress fun e => { e with beacon := e.beacon.set sg false })
  dequeue : ∀ sg : SegIx, Keeps P (State.modEgress fun e => { e with setpoints := upd e.setpoints sg List.tail })
  sendCheck : ∀ (sg : SegIx) c s, s.egress.checkSlot[sg] = some c → P s → P (s.sendCheck sg c)

section
variable {P : State → Prop} (h : EgressClosed P)
include h

theorem EgressClosed.sendStop (sg : SegIx) (a : AxisIx) : Keeps P (State.sendStop sg a) := by
  intro s hs
  have h2 := h.touch .egress (.axis a) _ (h.unstop sg a s hs)
  unfold State.sendStop
  simp only
  split
  · exact h.transmit _ _ _ h2
  · exact h2

theorem EgressClosed.sendSetpoint (sg : SegIx) (q : SetpointEntry) : Keeps P (State.sendSetpoint sg q) := by
  intro s hs
  have h2 := h.touch .egress (.axis q.axis) _ (h.dequeue sg s hs)
  unfold State.sendSetpoint
  simp only
  split
  · exact h2
  · exact h.transmit _ _ _ h2

theorem EgressClosed.choose (sg : SegIx) : Keeps P (State.choose sg) := by
  intro s hs
  have h1 := h.toTripClosed.pick s.egress.stopSet[sg] s hs
  unfold State.choose
  split
  · next a s1 he =>
    rw [he] at h1
    exact h.sendStop sg a _ h1
  · next s1 he =>
    rw [he] at h1
    split
    · exact h.transmit _ _ _ (h.unbeacon sg _ h1)
    · split
      · exact h.sendSetpoint sg _ _ h1
      · split
        · next c hc => exact h.sendCheck sg c _ hc h1
        · exact h1

theorem EgressClosed.settleFor : ∀ n, Keeps P (State.settleFor n) := by
  intro n
  induction n with
  | zero => intro s hs; exact hs
  | succ n ih =>
    intro s hs
    have h1 := h.toTripClosed.pick s.egress.idleWaiting s hs
    unfold State.settleFor
    split
    · next sg s1 he =>
      rw [he] at h1
      exact ih _ (h.choose sg _ h1)
    · next s1 he =>
      rw [he] at h1
      exact h1

theorem EgressClosed.settle : Keeps P State.settle := h.settleFor settleDepth

end

/-- A property kept by the parts of a sendCheck is kept by it. -/
theorem sendCheck_keeps {P : State → Prop} (h : TripClosed P) (htx : ∀ sg f, Keeps P (State.transmit sg f))
    (hslot : ∀ sg : SegIx, Keeps P (State.modEgress fun e => { e with checkSlot := e.checkSlot.set sg none }))
    (hsent : ∀ sg, Keeps P (State.modCheck sg fun r => { r with sent := true })) (sg : SegIx) (c : CheckFrame)
    (s : State) (_ : s.egress.checkSlot[sg] = some c) (hs : P s) : P (s.sendCheck sg c) := by
  have h2 := h.touch .egress (.axis c.axis) _ (hslot sg s hs)
  unfold State.sendCheck
  simp only
  split
  · exact h2
  · exact htx _ _ _ (hsent sg _ h2)

end Sys2Proof.Machine
end

