-- ==== Sys2Proof/Laws/Frame.lean ====
section
/-! SUPPORT. What a checked read, a trip and an egress choice leave alone, and what they come to while no record shows
an error. -/

namespace Sys2Proof.Machine

/-! ## Vectors -/

theorem upd_get {α : Type} {n : Nat} (v : Vector α n) (i j : Fin n) (f : α → α) :
    (upd v i f)[j] = if i = j then f v[i] else v[j] := by
  simp only [upd, Fin.getElem_fin, Vector.getElem_set, Fin.ext_iff]

theorem upd_get_same {α : Type} {n : Nat} (v : Vector α n) (i : Fin n) (f : α → α) :
    (upd v i f)[i] = f v[i] := by rw [upd_get, if_pos rfl]

theorem upd_get_ne {α : Type} {n : Nat} (v : Vector α n) {i j : Fin n} (h : i ≠ j) (f : α → α) :
    (upd v i f)[j] = v[j] := by rw [upd_get, if_neg h]

theorem set_get {α : Type} {n : Nat} (v : Vector α n) (i j : Fin n) (x : α) :
    (v.set i x)[j] = if i = j then x else v[j] := by
  simp only [Fin.getElem_fin, Vector.getElem_set, Fin.ext_iff]

/-! ## Table updates -/

@[simp] theorem TableStore.modErrors_axes (t : TableStore) (p : ProtectedTable) (f : ErrorStatus → ErrorStatus) :
    (t.modErrors p f).axes = t.axes := by cases p <;> rfl
@[simp] theorem TableStore.modErrors_groups (t : TableStore) (p : ProtectedTable) (f : ErrorStatus → ErrorStatus) :
    (t.modErrors p f).groups = t.groups := by cases p <;> rfl
@[simp] theorem TableStore.modErrors_pairs (t : TableStore) (p : ProtectedTable) (f : ErrorStatus → ErrorStatus) :
    (t.modErrors p f).pairs = t.pairs := by cases p <;> rfl
@[simp] theorem TableStore.modErrors_extents (t : TableStore) (p : ProtectedTable) (f : ErrorStatus → ErrorStatus) :
    (t.modErrors p f).extents = t.extents := by cases p <;> rfl
@[simp] theorem TableStore.modErrors_index (t : TableStore) (p : ProtectedTable) (f : ErrorStatus → ErrorStatus) :
    (t.modErrors p f).index = t.index := by cases p <;> rfl
@[simp] theorem TableStore.modErrors_scrubPos (t : TableStore) (p : ProtectedTable) (f : ErrorStatus → ErrorStatus) :
    (t.modErrors p f).scrubPos = t.scrubPos := by cases p <;> rfl
@[simp] theorem TableStore.correct_index (t : TableStore) (e : EntryRef) : (t.correct e).index = t.index := by
  cases e <;> rfl
@[simp] theorem TableStore.poison_index (t : TableStore) (e : EntryRef) : (t.poison e).index = t.index := by
  cases e <;> rfl
@[simp] theorem TableStore.correct_scrubPos (t : TableStore) (e : EntryRef) : (t.correct e).scrubPos = t.scrubPos := by
  cases e <;> rfl
@[simp] theorem TableStore.poison_scrubPos (t : TableStore) (e : EntryRef) : (t.poison e).scrubPos = t.scrubPos := by
  cases e <;> rfl
@[simp] theorem TableStore.noteCorrected_index (t : TableStore) (e : EntryRef) :
    (t.noteCorrected e).index = t.index := by simp [TableStore.noteCorrected]
@[simp] theorem TableStore.notePoisoned_index (t : TableStore) (e : EntryRef) :
    (t.notePoisoned e).index = t.index := by simp [TableStore.notePoisoned]
@[simp] theorem TableStore.noteCorrected_scrubPos (t : TableStore) (e : EntryRef) :
    (t.noteCorrected e).scrubPos = t.scrubPos := by simp [TableStore.noteCorrected]
@[simp] theorem TableStore.notePoisoned_scrubPos (t : TableStore) (e : EntryRef) :
    (t.notePoisoned e).scrubPos = t.scrubPos := by simp [TableStore.notePoisoned]

/-! ## What stays -/

theorem Quiet.refl (s : State) : Quiet s s := ⟨rfl, rfl, rfl, rfl, rfl, rfl, rfl, rfl, rfl, rfl, rfl, rfl, rfl, rfl, rfl⟩

theorem Quiet.trans {s t u : State} (h : Quiet s t) (k : Quiet t u) : Quiet s u :=
  ⟨k.timer.trans h.timer, k.index.trans h.index, k.scrubPos.trans h.scrubPos, k.axisRec.trans h.axisRec,
    k.pairRec.trans h.pairRec, k.waypoints.trans h.waypoints, k.zones.trans h.zones, k.inputs.trans h.inputs,
    k.segPorts.trans h.segPorts, k.clPort.trans h.clPort, k.paths.trans h.paths, k.settings.trans h.settings,
    k.requests.trans h.requests, k.resets.trans h.resets, k.pending.trans h.pending⟩

theorem Quiet.closeCheck (sg : SegIx) (s : State) : Quiet s (s.closeCheck sg) := by
  unfold State.closeCheck
  simp only
  split <;> exact ⟨rfl, rfl, rfl, rfl, rfl, rfl, rfl, rfl, rfl, rfl, rfl, rfl, rfl, rfl, rfl⟩

theorem quiet_tripClosed (s₀ : State) : TripClosed (Quiet s₀) where
  post := fun _ _ h => h.trans ⟨rfl, rfl, rfl, rfl, rfl, rfl, rfl, rfl, rfl, rfl, rfl, rfl, rfl, rfl, rfl⟩
  corrected := fun e s _ h => h.trans
    ⟨rfl, by simp, by simp, rfl, rfl, rfl, rfl, rfl, rfl, rfl, rfl, rfl, rfl, rfl, rfl⟩
  poisoned := fun e s _ h => h.trans
    ⟨rfl, by simp, by simp, rfl, rfl, rfl, rfl, rfl, rfl, rfl, rfl, rfl, rfl, rfl, rfl⟩
  close := fun sg s h => h.trans (Quiet.closeCheck sg s)
  drop := fun _ _ h => h.trans ⟨rfl, rfl, rfl, rfl, rfl, rfl, rfl, rfl, rfl, rfl, rfl, rfl, rfl, rfl, rfl⟩
  stop := fun _ _ _ h => h.trans ⟨rfl, rfl, rfl, rfl, rfl, rfl, rfl, rfl, rfl, rfl, rfl, rfl, rfl, rfl, rfl⟩
  purge := fun _ _ h => h.trans ⟨rfl, rfl, rfl, rfl, rfl, rfl, rfl, rfl, rfl, rfl, rfl, rfl, rfl, rfl, rfl⟩
  creepEnd := fun _ _ _ _ _ h => h.trans ⟨rfl, rfl, rfl, rfl, rfl, rfl, rfl, rfl, rfl, rfl, rfl, rfl, rfl, rfl, rfl⟩
  record := fun _ _ _ _ h => h.trans ⟨rfl, rfl, rfl, rfl, rfl, rfl, rfl, rfl, rfl, rfl, rfl, rfl, rfl, rfl, rfl⟩
  send := fun _ _ h => h.trans ⟨rfl, rfl, rfl, rfl, rfl, rfl, rfl, rfl, rfl, rfl, rfl, rfl, rfl, rfl, rfl⟩
  toTripped := fun _ _ _ h => h.trans ⟨rfl, rfl, rfl, rfl, rfl, rfl, rfl, rfl, rfl, rfl, rfl, rfl, rfl, rfl, rfl⟩
  further := fun _ _ _ h => h.trans ⟨rfl, rfl, rfl, rfl, rfl, rfl, rfl, rfl, rfl, rfl, rfl, rfl, rfl, rfl, rfl⟩
  draw := fun _ h => h.trans ⟨rfl, rfl, rfl, rfl, rfl, rfl, rfl, rfl, rfl, rfl, rfl, rfl, rfl, rfl, rfl⟩

theorem quiet_egressClosed (s₀ : State) : EgressClosed (Quiet s₀) where
  toTripClosed := quiet_tripClosed s₀
  transmit := fun _ _ _ h => h.trans ⟨rfl, rfl, rfl, rfl, rfl, rfl, rfl, rfl, rfl, rfl, rfl, rfl, rfl, rfl, rfl⟩
  unstop := fun _ _ _ h => h.trans ⟨rfl, rfl, rfl, rfl, rfl, rfl, rfl, rfl, rfl, rfl, rfl, rfl, rfl, rfl, rfl⟩
  unbeacon := fun _ _ h => h.trans ⟨rfl, rfl, rfl, rfl, rfl, rfl, rfl, rfl, rfl, rfl, rfl, rfl, rfl, rfl, rfl⟩
  dequeue := fun _ _ h => h.trans ⟨rfl, rfl, rfl, rfl, rfl, rfl, rfl, rfl, rfl, rfl, rfl, rfl, rfl, rfl, rfl⟩
  sendCheck := sendCheck_keeps (quiet_tripClosed s₀) (fun _ _ _ h => h.trans ⟨rfl, rfl, rfl, rfl, rfl, rfl, rfl, rfl, rfl, rfl, rfl, rfl, rfl, rfl, rfl⟩)
    (fun _ _ h => h.trans ⟨rfl, rfl, rfl, rfl, rfl, rfl, rfl, rfl, rfl, rfl, rfl, rfl, rfl, rfl, rfl⟩) (fun _ _ h => h.trans ⟨rfl, rfl, rfl, rfl, rfl, rfl, rfl, rfl, rfl, rfl, rfl, rfl, rfl, rfl, rfl⟩)

theorem Quiet.post (b : ReportBody) (s : State) : Quiet s (s.post b) :=
  ⟨rfl, rfl, rfl, rfl, rfl, rfl, rfl, rfl, rfl, rfl, rfl, rfl, rfl, rfl, rfl⟩
theorem Quiet.trip (r : TripRequest) (s : State) : Quiet s (s.trip r) := (quiet_tripClosed s).trip r s (Quiet.refl s)
theorem Quiet.touch (b : ReadingBlock) (e : EntryRef) (s : State) : Quiet s (s.touch b e) :=
  (quiet_tripClosed s).touch b e s (Quiet.refl s)
theorem Quiet.touchAll (b : ReadingBlock) (es : List EntryRef) (s : State) : Quiet s (s.touchAll b es) :=
  (quiet_tripClosed s).touchAll b es s (Quiet.refl s)
theorem Quiet.settle (s : State) : Quiet s s.settle := (quiet_egressClosed s).settle s (Quiet.refl s)
theorem Quiet.endCheck (sg : SegIx) (o : CheckOutcome) (x : Option (Word16 × Mounting)) (s : State) :
    Quiet s (s.endCheck sg o x) := (quiet_tripClosed s).endCheck sg o x s (Quiet.refl s)
theorem Quiet.endCreep (g : GroupIx) (st : CreepState) (v : Stored GroupFields → CreepRun → Verdict)
    (why : Option CreepAbort) (hst : st ≠ .running) (s : State) : Quiet s (s.endCreep State.trip g st v why) :=
  (quiet_tripClosed s).endCreep (quiet_tripClosed s).trip g st v why hst s (Quiet.refl s)
theorem Quiet.pushReply (r : Reply) (s : State) : Quiet s (s.pushReply r) :=
  ⟨rfl, rfl, rfl, rfl, rfl, rfl, rfl, rfl, rfl, rfl, rfl, rfl, rfl, rfl, rfl⟩

/-! ## Reads while no record shows an error -/

theorem touchWith_clean (trip : TripRequest → State → State) (b : ReadingBlock) (e : EntryRef) (s : State)
    (h : s.tables.outcome e = .clean ∨ s.tables.outcome e = .already) : s.touchWith trip b e = s := by
  unfold State.touchWith
  rcases h with h | h <;> rw [h]

theorem touch_sound (b : ReadingBlock) (e : EntryRef) (s : State) (h : s.Sound) : s.touch b e = s :=
  touchWith_clean _ b e s (h e)

theorem touchAll_sound (b : ReadingBlock) (es : List EntryRef) (s : State) (h : s.Sound) : s.touchAll b es = s := by
  unfold State.touchAll
  induction es with
  | nil => rfl
  | cons e es ih => rw [List.foldl_cons, touch_sound b e s h]; exact ih

/-- Soundness is a property of the records alone. -/
theorem Sound.of_tables {s t : State} (h : s.Sound) (ht : t.tables = s.tables) : t.Sound := by
  intro e; rw [ht]; exact h e

theorem reset_sound : State.reset.Sound := by
  intro e
  cases e with
  | axis a => left; simp [State.reset, TableStore.reset, TableStore.outcome, Stored.outcome, Stored.fresh]
  | group a => left; simp [State.reset, TableStore.reset, TableStore.outcome, Stored.outcome, Stored.fresh]
  | pair a => left; simp [State.reset, TableStore.reset, TableStore.outcome, Stored.outcome, Stored.fresh]
  | extent a => left; simp [State.reset, TableStore.reset, TableStore.outcome, Stored.outcome, Stored.fresh]

/-! ## Egress choices while no record shows an error -/

theorem SameButEgress.refl (s : State) : SameButEgress s s := ⟨rfl, fun _ => rfl⟩

theorem SameButEgress.trans {s t u : State} (h : SameButEgress s t) (k : SameButEgress t u) : SameButEgress s u := by
  refine ⟨?_, fun sg => ?_⟩
  · rw [k.1, h.1]
  · rw [k.2 sg, h.2 sg]

theorem SameButEgress.tables {s t : State} (h : SameButEgress s t) : t.tables = s.tables := by rw [h.1]

theorem same_of_modEgress (s : State) (f : Egress → Egress) : SameButEgress s (s.modEgress f) := ⟨rfl, fun _ => rfl⟩

theorem same_of_sent (s : State) (sg : SegIx) : SameButEgress s (s.modCheck sg fun r => { r with sent := true }) := by
  refine ⟨rfl, fun k => ?_⟩
  simp only [State.modCheck_checks, upd_get]
  split
  · next h => subst h; rfl
  · rfl

theorem pick_same {α : Type} (l : List α) (s : State) : SameButEgress s (s.pick l).2 := by
  match l with
  | [] => exact SameButEgress.refl s
  | [_] => exact SameButEgress.refl s
  | _ :: _ :: _ => exact ⟨rfl, fun _ => rfl⟩

theorem choose_same (sg : SegIx) (s : State) (h : s.Sound) : SameButEgress s (s.choose sg) := by
  have hp := pick_same s.egress.stopSet[sg] s
  unfold State.choose
  split
  · next a s1 he =>
    rw [he] at hp
    have h1 : (s1.modEgress fun e => { e with stopSet := upd e.stopSet sg (·.filter (· != a)) }).Sound :=
      Sound.of_tables h hp.tables
    refine hp.trans ?_
    unfold State.sendStop
    simp only [touch_sound _ _ _ h1]
    split
    · exact (same_of_modEgress _ _).trans (same_of_modEgress _ _)
    · exact same_of_modEgress _ _
  · next s1 he =>
    rw [he] at hp
    have h1 : s1.Sound := Sound.of_tables h hp.tables
    refine hp.trans ?_
    split
    · unfold State.sendBeacon State.transmit
      exact (same_of_modEgress s1 _).trans (same_of_modEgress _ _)
    · split
      · next q _ _ =>
        unfold State.sendSetpoint
        simp only [touch_sound _ _ (s1.modEgress _) h1]
        split
        · exact same_of_modEgress _ _
        · exact (same_of_modEgress _ _).trans (same_of_modEgress _ _)
      · split
        · unfold State.sendCheck
          simp only [touch_sound _ _ (s1.modEgress _) h1]
          split
          · exact same_of_modEgress _ _
          · exact (same_of_modEgress _ _).trans ((same_of_sent _ _).trans (same_of_modEgress _ _))
        · exact SameButEgress.refl _

theorem settleFor_same : ∀ (n : Nat) (s : State), s.Sound → SameButEgress s (s.settleFor n) := by
  intro n
  induction n with
  | zero => intro s _; exact SameButEgress.refl s
  | succ n ih =>
    intro s h
    have hp := pick_same s.egress.idleWaiting s
    unfold State.settleFor
    split
    · next sg s1 he =>
      rw [he] at hp
      have h1 : s1.Sound := Sound.of_tables h hp.tables
      have h2 := choose_same sg s1 h1
      exact hp.trans (h2.trans (ih _ (Sound.of_tables h1 h2.tables)))
    · next s1 he =>
      rw [he] at hp
      exact hp

theorem settle_same (s : State) (h : s.Sound) : SameButEgress s s.settle := settleFor_same settleDepth s h

/-- Nothing idle waits: no choice is made. -/
theorem settle_idle (s : State) (h : s.egress.idleWaiting = []) : s.settle = s := by
  unfold State.settle settleDepth State.settleFor State.pick
  rw [h]

end Sys2Proof.Machine
end

