-- ==== Sys2Proof/Laws/Requests.lean ====
section
/-! SUPPORT. What the taking of a request comes to: the owning block's work on the rest of the queue, its reply, and the
arbiters' choices (R146). -/

namespace Sys2Proof.Machine

theorem State.Presents.takeable {s : State} {q : Request} {d : Demand} (h : s.Presents q d) : s.takeable = some q := by
  unfold State.takeable
  have hr := h.room
  rw [if_pos (by simp only [h.done, List.isEmpty_nil, Bool.true_and, decide_eq_true_eq]; exact hr), h.head]

/-- The converse: what may be taken is presented. -/
theorem State.presents_of_takeable {s : State} {q : Request} (h : s.takeable = some q) : s.Presents q q.demand := by
  unfold State.takeable at h
  split at h
  · rename_i hc
    rw [Bool.and_eq_true, List.isEmpty_iff, decide_eq_true_eq] at hc
    exact ⟨hc.1, hc.2, h, rfl⟩
  · cases h

theorem serve_presents {s : State} {q : Request} {d : Demand} (h : s.Presents q d) {handle : Demand → Option (State → Answer)}
    {work : State → Answer} (hw : handle d = some work) : s.serve handle = ((work s.popRequest).reply q).settle := by
  unfold State.serve
  rw [h.takeable]
  simp only [h.asks, hw]

/-- A row whose form the head request does not have. -/
theorem serve_other {s : State} {q : Request} {d : Demand} (h : s.Presents q d) {handle : Demand → Option (State → Answer)}
    (hw : handle d = none) : s.serve handle = s := by
  unfold State.serve
  rw [h.takeable]
  simp only [h.asks, hw]

/-- With a full reply queue, or no request waiting, nothing is taken. -/
theorem serve_untaken {s : State} {handle : Demand → Option (State → Answer)} (h : s.takeable = none) :
    s.serve handle = s := by
  unfold State.serve
  rw [h]

/-- A request whose bytes were understood has a code byte. -/
theorem code_of_demand {q : Request} {d : Demand} (h : q.demand = d) (hd : d ≠ .unknown) : ∃ code, q.code = some code := by
  cases hc : q.code with
  | some c => exact ⟨c, rfl⟩
  | none => exact absurd (by rw [← h]; simp [Request.demand, hc]) hd

theorem answered_reply {q : Request} {d : Demand} (h : q.demand = d) (hd : d ≠ .unknown) (r : Answer) :
    Answered q r.state r.status r.parts (r.reply q).settle := by
  obtain ⟨c, hc⟩ := code_of_demand h hd
  exact ⟨c, hc, by simp [Answer.reply, State.replyCode, hc]⟩

/-- The head request is answered by its block's work. -/
theorem serve_answered {s : State} {q : Request} {d : Demand} (h : s.Presents q d) (hd : d ≠ .unknown)
    {handle : Demand → Option (State → Answer)} {work : State → Answer} (hw : handle d = some work) :
    Answered q (work s.popRequest).state (work s.popRequest).status (work s.popRequest).parts (s.serve handle) := by
  rw [serve_presents h hw]
  exact answered_reply h.asks hd _

theorem ixOfByte_natByte {n : Nat} (hn : n ≤ 256) (i : Fin n) : ixOfByte n (natByte i) = some i := by
  unfold ixOfByte natByte
  have : (BitVec.ofNat 8 i.val).toNat = i.val := by
    rw [BitVec.toNat_ofNat]; exact Nat.mod_eq_of_lt (by omega)
  simp [this]

/-- The group of a race with a CLEAR_TRIP: its CLEAR_TRIP is presented, and would be accepted (R104, R105; log 27). -/
theorem clearing_eq_some {s : State} {g : GroupIx} (h : s.clearing = some g) :
    ∃ q, s.Presents q (.clearTrip (natByte g)) ∧ s.permitState g = .tripped ∧
      (clearTripGroup g s.popRequest).status = .ok := by
  obtain ⟨q, hq, h⟩ := Option.bind_eq_some_iff.mp h
  split at h
  · rename_i b hb
    obtain ⟨hi, hc⟩ := Option.filter_eq_some_iff.mp h
    have hbg : b = natByte g := by
      unfold ixOfByte at hi
      split at hi
      · cases hi
        simp [natByte]
      · cases hi
    rw [Bool.and_eq_true, beq_iff_eq, beq_iff_eq] at hc
    exact ⟨q, hbg ▸ hb ▸ State.presents_of_takeable hq, hc⟩
  · cases h

theorem withIndex_natByte {n : Nat} (hn : n ≤ 256) (i : Fin n) (s : State) (f : Fin n → State → Answer) :
    withIndex n (natByte i) s f = f i s := by
  simp [withIndex, ixOfByte_natByte hn i]

theorem withIndex_bad {n : Nat} {b : Byte} (h : n ≤ b.toNat) (s : State) (f : Fin n → State → Answer) :
    withIndex n b s f = .refuse s .badIndex := by
  simp [withIndex, ixOfByte, Nat.not_lt.mpr h]

/-- The owning block's work on what a request asks (section 10.2). -/
def requestWork : Demand → State → Answer
  | .unknown => fun s => .refuse s .badRequest
  | .readAxis i => fun s => withIndex 64 i s readAxis
  | .readGroup i => fun s => withIndex 8 i s readGroup
  | .readPair i => fun s => withIndex 32 i s readPair
  | .readExtent i => fun s => withIndex 128 i s readExtent
  | .readZone i => fun s => withIndex 16 i s readZone
  | .readWaypoint i => fun s => withIndex 64 i s readWaypoint
  | .readInput i => fun s => withIndex 8 i s readInput
  | .readSettings i => fun s => withIndex 1 i s readSettings
  | .readSchedule i => fun s => withIndex 32 i s readSchedule
  | .writeAxis i f => fun s => withIndex 64 i s (writeAxis f)
  | .writeGroup i f => fun s => withIndex 8 i s (writeGroup f)
  | .writePair i f => fun s => withIndex 32 i s (writePair f)
  | .writeExtent i f => fun s => withIndex 128 i s (writeExtent f)
  | .writeZone => fun s => .refuse s .badRequest
  | .writeWaypoint i w => fun s => withIndex 64 i s (writeWaypoint w)
  | .writeInput i level groups => fun s => withIndex 8 i s (writeInput level groups)
  | .writeSettings i f => fun s => withIndex 1 i s (writeSettings f)
  | .writeSchedule i source => fun s => withIndex 32 i s (writeSchedule source)
  | .keyArm g => fun s => withIndex 8 g s presentArm
  | .keyRun g => fun s => withIndex 8 g s presentRun
  | .keyOther g => fun s => withIndex 8 g s presentOther
  | .park g => fun s => withIndex 8 g s parkGroup
  | .forceTrip g => fun s => withIndex 8 g s forceTripGroup
  | .clearTrip g => fun s => withIndex 8 g s clearTripGroup
  | .claimZone z g => fun s => withIndex 16 z s fun z s => withIndex 8 g s (claim z)
  | .releaseZone z g => fun s => withIndex 16 z s fun z s => withIndex 8 g s (releaseRequest z)
  | .linkCheck a => fun s => withIndex 64 a s linkCheck
  | .creepStart g duration => fun s => withIndex 8 g s (creepStart duration)
  | .creepStop g => fun s => withIndex 8 g s creepStop
  | .creepResult g => fun s => withIndex 8 g s creepResult
  | .loadSchedule => loadSchedule
  | .readTripRecord => readTripRecord
  | .rewindTripRecords => rewindTripRecords
  | .readStatus page => fun s => withIndex 5 page s readStatus
  | .clearCounters => fun s => .ok s.clearCounters []
  | .softReset => fun s => .ok s []

/-- Each row that takes a request, but for SOFT_RESET and UNKNOWN_REQUEST, answers it with its block's work. -/
theorem exec_answered {s : State} {q : Request} {d : Demand} (h : s.Presents q d) (hu : d ≠ .unknown)
    (hr : d ≠ .softReset) : ∃ t, exec d.command s = .next t ∧
      Answered q (requestWork d s.popRequest).state (requestWork d s.popRequest).status (requestWork d s.popRequest).parts t := by
  cases d with
  | unknown => exact absurd rfl hu
  | softReset => exact absurd rfl hr
  | _ => exact ⟨_, rfl, serve_answered h hu rfl⟩

end Sys2Proof.Machine
end

