-- ==== Sys2Proof/Laws/Shared.lean ====
section
/-! SUPPORT. What each shared operation leaves, said once as an equation on states: the ends of link checks, trip
requests sent in a row, the evaluation of lines, releases, the parts of a sample's work, and free orders. -/

namespace Sys2Proof.Machine

/-! ## Free orders and choices -/

theorem mem_orderOf (n : Nat) (o : List Nat) (k : Nat) : k ∈ orderOf n o ↔ k < n := by
  simp only [orderOf, List.mem_append, List.mem_eraseDups, List.mem_filter, List.mem_range, decide_eq_true_eq,
    Bool.not_eq_true']
  by_cases hk : k ∈ o <;> by_cases hl : k < n <;> simp [hk, hl]

/-- A free order takes each thing, and nothing else. -/
theorem mem_permute {α : Type} (o : List Nat) (l : List α) (x : α) : x ∈ permute o l ↔ x ∈ l := by
  simp only [permute, List.mem_filterMap, mem_orderOf]
  constructor
  · rintro ⟨k, _, h⟩
    exact List.mem_of_getElem? h
  · intro h
    obtain ⟨k, hk, e⟩ := List.mem_iff_getElem.mp h
    exact ⟨k, hk, by simp [hk, e]⟩

theorem nodup_eraseDups (l : List Nat) : l.eraseDups.Nodup := by
  induction hn : l.length using Nat.strong_induction_on generalizing l with
  | _ n ih =>
    cases l with
    | nil => simp
    | cons a l =>
      rw [List.eraseDups_cons, List.nodup_cons]
      refine ⟨by simp [List.mem_eraseDups], ih _ ?_ _ rfl⟩
      subst hn
      exact Nat.lt_succ_of_le (List.length_filter_le _ _)

/-- An order is a permutation of the indices. -/
theorem nodup_orderOf (n : Nat) (o : List Nat) : (orderOf n o).Nodup := by
  simp only [orderOf]
  refine List.Nodup.append (nodup_eraseDups _) (List.Nodup.filter _ List.nodup_range) ?_
  intro k h1 h2
  simp only [List.mem_filter, Bool.not_eq_true'] at h2
  rw [← List.contains_iff_mem] at h1
  rw [h1] at h2
  exact absurd h2.2 (by decide)

/-- A free order takes each thing once. -/
theorem permute_perm {α : Type} (o : List Nat) (l : List α) : (permute o l).Perm l := by
  have h : (orderOf l.length o).Perm (List.range l.length) :=
    (List.perm_ext_iff_of_nodup (nodup_orderOf _ _) List.nodup_range).mpr fun k => by
      rw [mem_orderOf, List.mem_range]
  have e : (List.range l.length).filterMap (l[·]?) = l := by
    clear h
    induction l with
    | nil => rfl
    | cons a l ih => simp [List.range_succ_eq_map, List.filterMap_map, ih]
  exact (h.filterMap _).trans (.of_eq e)

theorem mem_inFreeOrder {α : Type} (l : List α) (s : State) (x : α) : x ∈ (s.inFreeOrder l).1 ↔ x ∈ l := by
  match l with
  | [] => rfl
  | [_] => rfl
  | _ :: _ :: _ => exact mem_permute _ _ _

theorem inFreeOrder_state {α : Type} (l : List α) (s : State) :
    (s.inFreeOrder l).2 = { s with freeCount := (s.inFreeOrder l).2.freeCount } := by
  match l with
  | [] => rfl
  | [_] => rfl
  | _ :: _ :: _ => rfl

/-- One of several is taken when there is one. -/
theorem pick_mem {α : Type} (l : List α) (s : State) (h : l ≠ []) : ∃ x ∈ l, (s.pick l).1 = some x := by
  match l with
  | [] => exact absurd rfl h
  | [x] => exact ⟨x, by simp, rfl⟩
  | x :: y :: rest =>
    have hlt : Config.freeIndex s.freeCount % (rest.length + 2) < (x :: y :: rest).length := by
      simpa using Nat.mod_lt _ (Nat.succ_pos _)
    exact ⟨_, List.getElem_mem hlt, by simp only [State.pick]; rw [List.getElem?_eq_getElem hlt]⟩

/-! ## Ends of link checks -/

theorem closeCheck_eq (sg : SegIx) (s : State) : s.closeCheck sg = { s with
    checks := upd s.checks sg (fun r => { r with inFlight := false })
    egress := { s.egress with
      checkSlot := if s.checks[sg].sent then s.egress.checkSlot else s.egress.checkSlot.set sg none } } := by
  unfold State.closeCheck
  simp only
  split <;> rfl

theorem endCheck_eq (sg : SegIx) (o : CheckOutcome) (x : Option (Word16 × Mounting)) (s : State) :
    s.endCheck sg o x = { s with
      checks := upd s.checks sg (fun r => { r with inFlight := false })
      egress := { s.egress with
        checkSlot := if s.checks[sg].sent then s.egress.checkSlot else s.egress.checkSlot.set sg none }
      cl := (s.endCheck sg o x).cl } := by
  unfold State.endCheck
  rw [closeCheck_eq]
  rfl

theorem abortChecks_eq (q : AxisIx → Bool) (l : List SegIx) (s : State) : s.abortChecks q l = { s with
    checks := (s.abortChecks q l).checks
    egress := { s.egress with checkSlot := (s.abortChecks q l).egress.checkSlot }
    cl := (s.abortChecks q l).cl } := by
  unfold State.abortChecks
  induction l generalizing s with
  | nil => rfl
  | cons a l ih =>
    simp only [List.foldl_cons]
    split
    · rw [ih, endCheck_eq]
    · exact ih s

/-- A post changes the CL side alone. -/
theorem post_eq (b : ReportBody) (s : State) : s.post b = { s with cl := s.cl.post s.postContext b } := rfl

/-- The reports of the link checks of an axis that are ended, in the order of the segments. -/
theorem abortChecks_cl (a : AxisIx) (l : List SegIx) (hl : l.Nodup) (s : State) :
    (s.abortChecks (· == a) l).cl =
      (l.filter fun sg => s.checks[sg].inFlight && s.checks[sg].axis == a).foldl (fun c sg => c.post s.postContext
        (.linkCheckDone a .aborted sg s.checks[sg].phase s.checks[sg].expected none s.checks[sg].stale)) s.cl := by
  unfold State.abortChecks
  induction l generalizing s with
  | nil => rfl
  | cons k l ih =>
    rw [List.nodup_cons] at hl
    simp only [List.foldl_cons, List.filter_cons]
    split
    · next h =>
      have hk : ∀ sg ∈ l, (s.endCheck k .aborted none).checks[sg] = s.checks[sg] := by
        intro sg hsg
        rw [endCheck_eq]
        exact upd_get_ne _ (fun e => hl.1 (by rw [e]; exact hsg)) _
      have hc : (s.endCheck k .aborted none).postContext = s.postContext := by rw [endCheck_eq]; rfl
      have ha : s.checks[k].axis = a := by
        simp only [Bool.and_eq_true, beq_iff_eq] at h
        exact h.2
      have hp : (s.endCheck k .aborted none).cl = s.cl.post s.postContext
          (.linkCheckDone a .aborted k s.checks[k].phase s.checks[k].expected none s.checks[k].stale) := by
        unfold State.endCheck
        rw [post_eq, closeCheck_eq, ← ha]
        rfl
      rw [ih hl.2 _, List.foldl_cons, hp, hc, List.filter_congr fun sg hsg => by rw [hk sg hsg]]
      apply List.foldl_ext
      intro c sg hsg
      rw [hk sg (List.mem_of_mem_filter hsg)]
    · exact ih hl.2 s

/-- The end of a creep run while no record shows an error. -/
theorem endCreep_sound (trip : TripRequest → State → State) (g : GroupIx) (st : CreepState)
    (v : Stored GroupFields → CreepRun → Verdict) (why : Option CreepAbort) (s : State) (h : s.Sound) :
    s.endCreep trip g st v why = { s with
      creep := upd s.creep g (fun r => { r with state := st, verdict := v s.tables.groups[g] r })
      cl := s.cl.post s.postContext (.creepDone g
        { s.creep[g] with state := st, verdict := v s.tables.groups[g] s.creep[g] }
        s.tables.groups[g].held.creepLimit why) } := by
  simp only [State.endCreep, touchWith_clean _ _ _ _ (h _), State.modCreep, upd_get_same, post_eq]
  rfl

/-- A poisoning does not change the group an entry names. -/
theorem namedGroup_notePoisoned (s : State) (e : EntryRef) :
    (s.modTables (·.notePoisoned e)).namedGroup e = s.namedGroup e := by
  cases e with
  | axis a => simp [State.namedGroup, State.groupOf, State.modTables]
  | group a => rfl
  | pair p => simp [State.namedGroup, State.pairGroup, State.groupOf, State.pairAxes, State.pairOf, State.modTables]
  | extent x =>
    simp only [State.namedGroup, State.heldExtentAxis, State.modTables]
    have : (s.tables.notePoisoned (.extent x)).extents[x] = s.tables.extents[x].poison := by
      simp [TableStore.notePoisoned, TableStore.poison, upd]
    rw [this]
    simp [State.groupOf]
    rfl

/-- While no record shows an error, the extents read for an axis are those that name it. -/
theorem mem_extentsOf_sound (s : State) (h : s.Sound) (q : AxisIx → Bool) (x : ExtentIx) :
    x ∈ s.extentsOf q ↔ (s.extentAxis x).any q = true := by
  have e : s.tables.extents[x].seen = s.tables.extents[x].held := by
    have h := h (.extent x)
    simp only [TableStore.outcome, Stored.outcome] at h
    simp only [Stored.seen]
    split
    · rfl
    · next hp =>
      rw [if_neg hp] at h
      cases hc : s.tables.extents[x].check <;> simp only [hc, reduceCtorEq, or_false] at h ⊢
  simp only [State.extentsOf, State.heldExtentAxis, State.extentAxis, e, Bool.or_self, List.mem_filter, List.mem_finRange, true_and]

/-! ## Trip requests sent in a row -/

theorem sendAll_eq {α : Type} (w : TripSender) (f : α → TripRequest) (l : List α) (s : State) :
    l.foldl (fun s a => s.send w (f a)) s = { s with inFlight := s.inFlight ++ l.map fun a => (w, f a) } := by
  induction l generalizing s with
  | nil => simp
  | cons a l ih =>
    rw [List.foldl_cons, ih]
    simp [State.send]

theorem sendInputs_eq (w : TripSender) (l : LineIx) (also : Option GroupIx) (s : State) : s.sendInputs w l also = { s with
    inFlight := s.inFlight ++ (s.lineTargets l also).map fun g => (w, ⟨g, ⟨.input, .line l⟩, none⟩) } :=
  sendAll_eq _ _ _ _

/-- With no group named, no group already TRIPPED is a target (R124). -/
theorem lineTargets_none (s : State) (l : LineIx) :
    s.lineTargets l none = (groupsOf s.inputs[l].groups).filter fun g => s.permitState g != .tripped := by
  simp [State.lineTargets]

/-- A mapped group is a target when it is not TRIPPED or is the group named (R105, R124). -/
theorem mem_lineTargets (s : State) (l : LineIx) (also : Option GroupIx) (g : GroupIx) : g ∈ s.lineTargets l also ↔
    g ∈ groupsOf s.inputs[l].groups ∧ (s.permitState g ≠ .tripped ∨ also = some g) := by
  simp [State.lineTargets]

theorem evaluateLine_eq (w : TripSender) (l : LineIx) (s : State) : s.evaluateLine w l = { s with
    inFlight := s.inFlight ++
      (if s.inputs[l].isActive then
        ((groupsOf s.inputs[l].groups).filter fun g => s.permitState g != .tripped).map fun g =>
          (w, ⟨g, ⟨.input, .line l⟩, none⟩)
      else []) } := by
  unfold State.evaluateLine
  split
  · rw [sendInputs_eq, lineTargets_none]
  · simp

/-- With no race, R124 alone; with one, its group is a target too or not, and nothing else is free (log 27). -/
theorem evaluateLineAgainst_cases (race : Option GroupIx) (l : LineIx) (s : State) :
    ∃ (also : Option GroupIx) (n : Nat), (∀ g, also = some g → race = some g) ∧
      s.evaluateLineAgainst race l = { s with
        freeCount := n
        inFlight := s.inFlight ++
          (if s.inputs[l].isActive then
            (s.lineTargets l also).map fun g => (TripSender.tripUnit, ⟨g, ⟨.input, .line l⟩, none⟩)
          else []) } := by
  cases race with
  | none =>
    refine ⟨none, s.freeCount, by simp, ?_⟩
    simp only [State.evaluateLineAgainst, evaluateLine_eq, lineTargets_none]
  | some g =>
    refine ⟨if Config.freeRequest s.freeCount then some g else none,
      if s.inputs[l].isActive then s.freeCount + 1 else s.freeCount, by simp, ?_⟩
    simp only [State.evaluateLineAgainst]
    split
    · exact sendInputs_eq _ _ _ _
    · simp

theorem sendCauses_eq (t : Taken) (cs : List Cause) (s : State) : s.sendCauses t cs = { s with
    inFlight := s.inFlight ++
      (match t.watched with
        | none => []
        | some g => cs.map fun c => (TripSender.sampleMonitor, ⟨g, ⟨c, .axis t.axis⟩, none⟩)) } := by
  unfold State.sendCauses
  cases t.watched with
  | some g => exact sendAll_eq _ _ _ _
  | none => simp only [List.append_nil]

/-! ## Stops and segment loss -/

theorem mem_insertAxis (a b : AxisIx) (l : List AxisIx) : b ∈ insertAxis a l ↔ b = a ∨ b ∈ l := by
  induction l with
  | nil => simp [insertAxis]
  | cons c l ih =>
    unfold insertAxis
    split
    · simp
    · split
      · next h => subst h; simp
      · rw [List.mem_cons, ih, List.mem_cons]; tauto

/-- Owing stops while no record shows an error: only the stop sets change, by the axes that have a segment. -/
theorem oweStops_sound (trip : TripRequest → State → State) (l : List AxisIx) (s : State) (h : s.Sound) :
    ∃ v : Vector (List AxisIx) 4,
      l.foldl (fun s a => s.oweStop trip a) s = { s with egress := { s.egress with stopSet := v } } ∧
        ∀ (sg : SegIx) (a : AxisIx), a ∈ v[sg] ↔
          a ∈ s.egress.stopSet[sg] ∨ (a ∈ l ∧ segOfByte s.tables.axes[a].held.segment = some sg) := by
  induction l generalizing s with
  | nil => exact ⟨s.egress.stopSet, rfl, by simp⟩
  | cons a l ih =>
    have one : ∃ v : Vector (List AxisIx) 4, s.oweStop trip a = { s with egress := { s.egress with stopSet := v } } ∧
        ∀ (sg : SegIx) (b : AxisIx), b ∈ v[sg] ↔
          b ∈ s.egress.stopSet[sg] ∨ (b = a ∧ segOfByte s.tables.axes[a].held.segment = some sg) := by
      unfold State.oweStop
      rw [touchWith_clean _ _ _ _ (h _)]
      simp only
      split
      · next k hk =>
        refine ⟨_, rfl, fun sg b => ?_⟩
        rw [upd_get]
        split
        · next e => subst e; rw [mem_insertAxis, hk]; simp; tauto
        · next e => simp only [hk, Option.some.injEq, e, and_false, or_false]
      · next hk => exact ⟨s.egress.stopSet, rfl, fun sg b => by rw [hk]; simp⟩
    obtain ⟨v, e1, e2⟩ := one
    rw [List.foldl_cons, e1]
    obtain ⟨v', e3, e4⟩ := ih { s with egress := { s.egress with stopSet := v } } (Sound.of_tables h rfl)
    refine ⟨v', e3, fun sg b => ?_⟩
    rw [e4, e2, List.mem_cons]
    constructor
    · rintro ((k | ⟨rfl, k⟩) | k)
      · exact .inl k
      · exact .inr ⟨.inl rfl, k⟩
      · exact .inr ⟨.inr k.1, k.2⟩
    · rintro (k | ⟨rfl | k, k'⟩)
      · exact .inl (.inl k)
      · exact .inl (.inr ⟨rfl, k'⟩)
      · exact .inr ⟨k, k'⟩

/-- The reports of the trip unit's work while no record shows an error: CREEP_DONE of a run it aborts, then TRIP. -/
theorem tripUnitWork_cl (trip : TripRequest → State → State) (r : TripRequest) (left : PermitState) (u : State)
    (hs : u.Sound) :
    (u.tripUnitWork trip r left).cl = (if u.creep[r.group].state = .running then
        u.cl.post u.postContext (.creepDone r.group
          { u.creep[r.group] with state := .aborted, verdict := .unknown }
          u.tables.groups[r.group].held.creepLimit (some (.trip r.cause.cause)))
      else u.cl).post u.postContext (.trip r.group r.cause r.origin left u.ring.writePtr (u.ring.number + 1)
        (u.memberList r.group).length) := by
  unfold State.tripUnitWork
  simp only [touchWith_clean _ _ _ _ (hs _)]
  obtain ⟨v, h1, h2⟩ := oweStops_sound trip (u.memberList r.group) u hs
  rw [h1]
  have hprop : ∀ (l : List GroupIx) (x : State), (x.propagate r l).cl = x.cl := by
    intro l x
    unfold State.propagate
    split
    · rfl
    · rw [sendAll_eq]
  rw [hprop]
  have hs2 : (State.purgeGroup r.group { u with egress := { u.egress with stopSet := v } }).Sound := Sound.of_tables hs rfl
  simp only [State.recordTrip, post_eq, State.abortCreep, endCreep_sound _ _ _ _ _ _ hs2]
  have : (State.purgeGroup r.group { u with egress := { u.egress with stopSet := v } }).creep = u.creep := rfl
  rw [this]
  split <;> rfl

/-! ## The requests of samples before a PARK -/

theorem splitSampled_none (g : GroupIx) (l : List (TripSender × TripRequest)) (h : ∀ p ∈ l, fromSampleTo g p = false) :
    splitSampled g l = ([], l) := by
  induction l with
  | nil => rfl
  | cons p l ih =>
    have hp := List.forall_mem_cons.mp h
    have hany : (p :: l).any (fromSampleTo g) = false := List.any_eq_false.mpr fun q hq => by simp [h q hq]
    simp only [splitSampled, hany, Bool.and_false, ih hp.2, Bool.false_eq_true, if_false]

/-- With no request of step 3 to the group in flight, a PARK takes none. -/
theorem takeSampled_none (g : GroupIx) (s : State) (h : ∀ p ∈ s.inFlight, fromSampleTo g p = false) :
    s.takeSampled g = s := by
  simp only [State.takeSampled, splitSampled_none g _ h, List.foldl_nil]
  split <;> rfl

/-- No request of step 3 to the group stays in flight. -/
theorem splitSampled_rest (g : GroupIx) (l : List (TripSender × TripRequest)) :
    ∀ p ∈ (splitSampled g l).2, fromSampleTo g p = false := by
  induction l with
  | nil => intro p hp; cases hp
  | cons q l ih =>
    intro p hp
    simp only [splitSampled] at hp
    split at hp
    · exact ih p hp
    · next hq =>
      rcases List.mem_cons.mp hp with rfl | hp
      · by_contra hf
        have hf : fromSampleTo g p = true := by simpa using hf
        have hs : (p.1 == TripSender.sampleMonitor) = true := by
          simp only [fromSampleTo, Bool.and_eq_true] at hf
          exact hf.1.1
        exact hq (by simp [hs, hf])
      · exact ih p hp

/-- The requests that are taken, and those that stay, each keep their order. -/
theorem splitSampled_sublists (g : GroupIx) (l : List (TripSender × TripRequest)) :
    (splitSampled g l).1.Sublist (l.map (·.2)) ∧ (splitSampled g l).2.Sublist l := by
  induction l with
  | nil => exact ⟨.slnil, .slnil⟩
  | cons q l ih =>
    simp only [splitSampled]
    split
    · exact ⟨ih.1.cons_cons _, ih.2.cons _⟩
    · exact ⟨ih.1.cons _, ih.2.cons_cons _⟩

/-! ## A sample's work while no record shows an error -/

theorem readMemberExtents_sound (b : ReadingBlock) (g : GroupIx) (s : State) (h : s.Sound) :
    s.readMemberExtents b g = s := touchAll_sound _ _ _ h

theorem release_sound (s : State) (h : s.Sound) (z : ZoneIx) (g : GroupIx) (way : ZoneWay) :
    (s.release z g way).1 = { s with
      zones := (s.release z g way).1.zones
      egress := { s.egress with setpoints := (s.release z g way).1.egress.setpoints }
      cl := (s.release z g way).1.cl } := by
  have hz : ({ s with zones := s.zones.set z none } : State).Sound := Sound.of_tables h rfl
  simp only [State.release]
  split
  · rw [readMemberExtents_sound _ _ _ h]
    split
    · rfl
    · simp only [State.releaseAccepted, State.purgeZone, readMemberExtents_sound _ _ _ hz]
      rfl
  · rfl

end Sys2Proof.Machine
end

