-- ==== Sys2Proof/Laws/Works.lean ====
section
/-! SUPPORT. Everything a request's work and a block's own event can do, said once: a property kept by the primitive
changes below is kept by each of them. -/

namespace Sys2Proof.Machine

/-- The change leaves a permit's state, lapse counter and half-done mark alone. -/
def PermitNotes (f : Permit → Permit) : Prop :=
  ∀ p, (f p).state = p.state ∧ (f p).lapse = p.lapse ∧ (f p).halfDone = p.halfDone

/-- What a checked read leaves: a record poisoned, or held as the check restores it (R138 to R140). -/
def Stored.settled {F : Type} (r : Stored F) : Prop :=
  r.poisoned = true ∨ r.check = .clean ∨ r.check = .lasting r.held

/-- Every other entry of a write's uniqueness test has been read (R7 step 6, R138). -/
def State.othersRead (s : State) (a : AxisIx) : Prop := ∀ b : AxisIx, b ≠ a → s.tables.axes[b].settled

/-- The members a group write names have been read, and found valid and not poisoned (R11). -/
def State.membersRead (s : State) (f : GroupFields) : Prop :=
  ∀ a ∈ f.members.filterMap axisOfByte, s.tables.axes[a].settled ∧ s.usableAxis a = true

/-- What an accepted axis write has passed (R7). -/
def State.axisWriteOk (s : State) (a : AxisIx) (f : AxisFields) : Prop :=
  (f.valid = false → s.groupOf a = none) ∧
    (f.valid = true → f.inRange = true ∧ s.stationTaken a f = false ∧ s.othersRead a)

/-- What an accepted group write has passed (R11). -/
def State.groupWriteOk (s : State) (g : GroupIx) (f : GroupFields) : Prop :=
  f.valid = true → f.inRange g = true ∧ s.membersRead f ∧ (∀ b ∈ f.members, (axisOfByte b).isSome) ∧
    ∀ a ∈ f.members.filterMap axisOfByte, s.groupOf a = none ∨ s.groupOf a = some g

/-- The property is kept by every primitive change that a block makes at a cycle start. -/
structure CycleClosed (P : State → Prop) : Prop extends EgressClosed P where
  permit : ∀ g st lapse, st ≠ .tripped → (st = .disarmed → lapse = 0) → Keeps P fun s =>
    (s.modPermit g fun p => { p with state := st, lapse := lapse, halfDone := false }).setBrk g (st == .live)
  notes : ∀ g f, PermitNotes f → Keeps P (State.modPermit g f)
  creep : ∀ g f, Keeps P (State.modCreep g f)
  axis : ∀ a f, Keeps P (State.modAxis a f)
  sendAny : ∀ w r, Keeps P (State.send w r)
  segPort : ∀ sg f, Keeps P (State.modSegPort sg f)
  clPort : ∀ f, Keeps P (State.modClPort f)
  decrement : ∀ g s, s.permitState g = .primed ∨ s.permitState g = .live → P s → P (s.decrementLapse g)
  timeout : ∀ sg, Keeps P (State.modCheck sg fun r => { r with timeout := satInc r.timeout })
  scrubPos : ∀ k, Keeps P (State.modTables fun t => { t with scrubPos := k })

section
variable {P : State → Prop} (h : CycleClosed P)
include h

theorem CycleClosed.changePermit (g : GroupIx) (st : PermitState) (lapse : Word16) (why : PermitReason)
    (h1 : st ≠ .tripped) (h2 : st = .disarmed → lapse = 0) : Keeps P (State.changePermit g st lapse why) :=
  fun s hs => h.post _ _ (h.permit g st lapse h1 h2 s hs)

theorem CycleClosed.finishCreep (g : GroupIx) : Keeps P (State.finishCreep g) :=
  h.endCreep h.trip g .done creepVerdict none (by decide)

theorem CycleClosed.modPort (p : PortId) (f : Port → Port) : Keeps P (State.modPort p f) := by
  intro s hs
  cases p with
  | seg n => exact h.segPort n (fun q => { q with port := f q.port }) s hs
  | cl => exact h.clPort (fun q => { q with port := f q.port }) s hs

theorem CycleClosed.segmentLoss (sg : SegIx) : Keeps P (State.segmentLoss sg) := by
  intro s hs
  have h2 := h.post (.portChange (.seg sg) .down (s.portOf (.seg sg)).silence) _
    (h.modPort (.seg sg) (fun q => { q with link := .down }) s hs)
  have h3 := keeps_foldl (P := P) (fun s a => s.modAxis a fun r => { r with checked := false })
    (fun s _ hs => h.axis _ _ s hs)
  unfold State.segmentLoss
  simp only
  refine keeps_foldl _ (fun s _ hs => h.trip _ s hs) _ _ ?_
  split
  · exact h.endCheck _ _ _ _ (h3 _ _ h2)
  · exact h3 _ _ h2

theorem CycleClosed.clLoss : Keeps P State.clLoss := fun s hs =>
  keeps_foldl _ (fun s _ hs => h.sendAny _ _ s hs) _ _ (h.post _ _ (h.modPort .cl _ s hs))

theorem CycleClosed.portLoss (p : PortId) : Keeps P (State.portLoss p) := by
  intro s hs
  cases p with
  | seg n => exact h.segmentLoss n s hs
  | cl => exact h.clLoss s hs

theorem CycleClosed.portCycle (p : PortId) : Keeps P (State.portCycle p) := by
  intro s hs
  simp only [State.portCycle]
  split
  · exact h.modPort _ _ s hs
  · split
    · exact h.portLoss _ _ (h.modPort _ _ s hs)
    · exact h.modPort _ _ s hs

theorem CycleClosed.becomeLost (a : AxisIx) : Keeps P (State.becomeLost a) := by
  intro s hs
  simp only [State.becomeLost]
  split
  · exact h.abortCreep h.trip _ _ _ (h.trip _ _ (h.post _ _ (h.axis _ _ s hs)))
  · exact h.post _ _ (h.axis _ _ s hs)

theorem CycleClosed.closeAxis (s : State) (a : AxisIx) (hs : P s) : P (s.closeAxis a) := by
  have h1 := h.touch .monitor (.axis a) s hs
  simp only [State.closeAxis]
  split
  · split
    · simp only [State.closeArrived]
      split
      · exact h.post _ _ (h.axis _ _ _ h1)
      · exact h.axis _ _ _ h1
    · simp only [State.closeMissed]
      split
      · exact h.becomeLost _ _ (h.axis _ _ _ h1)
      · exact h.axis _ _ _ h1
  · exact h1

theorem CycleClosed.refillGroup (s : State) (g : GroupIx) (hs : P s) : P (s.refillGroup g) := by
  simp only [State.refillGroup]
  split
  · exact keeps_foldl _ (fun s a hs => h.oweStop h.trip s a hs) _ _ (h.touch _ _ s hs)
  · exact hs

theorem CycleClosed.creepCycle (g : GroupIx) : Keeps P (State.creepCycle g) := by
  intro s hs
  simp only [State.creepCycle]
  split
  · split
    · exact h.finishCreep _ _ (h.creep _ _ s hs)
    · exact h.creep _ _ s hs
  · exact hs

theorem CycleClosed.permitCycle (s : State) (g : GroupIx) (hs : P s) : P (s.permitCycle g) := by
  unfold State.permitCycle
  split
  · exact hs
  · exact h.notes g (fun p => { p with age := satInc p.age }) (fun _ => ⟨rfl, rfl, rfl⟩) s hs
  · next hp =>
    have h1 := h.decrement g s (.inl hp) hs
    simp only
    split
    · exact h.changePermit g .disarmed 0 .primeExpired (by decide) (fun _ => rfl) _ h1
    · exact h1
  · next hp =>
    have h1 := h.decrement g s (.inr hp) hs
    simp only
    split
    · exact h.trip _ _ h1
    · exact h1

theorem CycleClosed.checkTimeout (sg : SegIx) : Keeps P (State.checkTimeout sg) := by
  intro s hs
  simp only [State.checkTimeout]
  split
  · split
    · exact h.endCheck _ _ _ _ (h.timeout sg s hs)
    · exact h.timeout sg s hs
  · exact hs

theorem CycleClosed.scrubVisits : ∀ n, Keeps P (State.scrubVisits n) := by
  intro n
  induction n with
  | zero => intro s hs; exact hs
  | succ n ih =>
    intro s hs
    exact ih _ (h.scrubPos _ _ (h.touch _ _ s hs))

theorem CycleClosed.settleSegFor : ∀ n sg, Keeps P (State.settleSegFor n sg) := by
  intro n
  induction n with
  | zero => intro sg s hs; exact hs
  | succ n ih =>
    intro sg s hs
    unfold State.settleSegFor
    split
    · exact ih _ _ (h.choose sg s hs)
    · exact hs

theorem CycleClosed.cycleTask (o : CycleOrders) (s : State) (t : CycleTask) (hs : P s) : P (s.cycleTask o t) := by
  cases t with
  | monitor => exact keeps_foldl _ (fun s a hs => h.closeAxis s a hs) _ _ hs
  | permit => exact keeps_foldl _ (fun s g hs => h.permitCycle s g hs) _ _ hs
  | trip => exact keeps_foldl _ (fun s g hs => h.refillGroup s g hs) _ _ hs
  | check =>
    refine keeps_foldl _ (fun s r hs => ?_) _ _ hs
    cases r with
    | link sg => exact h.checkTimeout sg s hs
    | creep g => exact h.creepCycle g s hs
  | tables => exact h.scrubVisits _ s hs
  | port p => exact h.portCycle p s hs
  | egress sg => exact h.settleSegFor _ sg s hs

/-- What follows the timer's own work at a cycle start. -/
theorem CycleClosed.cycleTasks (o : CycleOrders) (s : State) (hs : P s) :
    P ((permute o.tasks CycleTask.all).foldl (State.cycleTask o) s).settle :=
  h.settle _ (keeps_foldl _ (fun s t hs => h.cycleTask o s t hs) _ _ hs)

end

/-- The property is kept by every primitive change of an event that takes no reply and no time. -/
structure WorkClosed (P : State → Prop) : Prop extends CycleClosed P where
  service : ∀ g lapse half s, s.permitState g = .live → P s →
    P (s.modPermit g fun p => { p with lapse := lapse, halfDone := half })
  removeStops : ∀ l, Keeps P (State.removeStops l)
  filterQueue : ∀ q, Keeps P (State.modEgress fun e => { e with setpoints := e.setpoints.map (·.filter q) })
  zones : ∀ v, Keeps P fun s => { s with zones := v }
  takeRequest : ∀ l, Keeps P fun s => { s with inFlight := l }
  startCheck : ∀ (sg : SegIx) a s, s.checks[sg].inFlight = false → s.tables.axes[a].poisoned = false → P s →
    P (s.startCheck sg a)
  stale : ∀ sg, Keeps P (State.modCheck sg fun r => { r with stale := satInc r.stale })
  pair : ∀ p f, Keeps P (State.modPair p f)
  waypoints : ∀ v, Keeps P fun s => { s with waypoints := v }
  inputs : ∀ v, Keeps P fun s => { s with inputs := v }
  settings : ∀ f : Settings, f.inRange = true → Keeps P fun s => { s with settings := f }
  storeAxis : ∀ (a : AxisIx) f s, s.axisWriteOk a f → P s →
    P (s.modTables fun t => { t with axes := t.axes.set a (.fresh f.stored) })
  storeGroup : ∀ (g : GroupIx) f s, s.groupWriteOk g f → P s → P (s.modTables fun t => { t with
    groups := t.groups.set g (.fresh f.stored)
    index := Vector.ofFn fun a => rewriteGroup g (f.stored.members.filterMap axisOfByte) a t.index[a] })
  storePair : ∀ (p : PairIx) f, Keeps P (State.modTables fun t => { t with
    pairs := t.pairs.set p (.fresh f.stored)
    index := Vector.ofFn fun a => rewritePair p f a t.index[a] })
  storeExtent : ∀ (x : ExtentIx) f, Keeps P (State.modTables fun t =>
    { t with extents := t.extents.set x (.fresh f) })
  overtake : ∀ a, Keeps P fun s => { s with paths := s.paths.overtake a }
  shadow : ∀ (k : Fin 32) src s, s.cl.schedule.loadPending = false → P s → P
    { s with cl := { s.cl with schedule := { s.cl.schedule with shadow := s.cl.schedule.shadow.set k src } } }
  setPending : ∀ s, missingSource s.cl.schedule.shadow = none → P s → P { s with cl := s.cl.setPending }
  loadIdle : ∀ s, s.cl.schedule.loadPending = true → P s → P (s.onCl ClSide.loadIdle)
  readPtr : ∀ k, Keeps P (State.moveReadPtr k)
  clearCounters : Keeps P State.clearCounters
  enqueue : ∀ e, Keeps P (State.enqueue e)
  forward : ∀ (sg : SegIx) e, Keeps P (State.onCl fun ctx c =>
    { c with forward := upd c.forward sg (placeForward e) }.kick ctx)

section
variable {P : State → Prop} (h : WorkClosed P)
include h

/-! ### Permits -/

theorem WorkClosed.armChecked (g : GroupIx) : Keeps P fun s => (Machine.armChecked g s).state := by
  intro s hs
  simp only [Machine.armChecked, permitAnswer, Answer.of]
  repeat' split
  all_goals first
    | exact hs
    | exact h.changePermit g .primed _ .armed (by decide) (by simp) s hs

theorem WorkClosed.arm (g : GroupIx) : Keeps P fun s => (Machine.arm g s).state := by
  intro s hs
  have h1 := h.touch .permit (.group g) s hs
  have h2 := h.touchAll .permit ((s.touch .permit (.group g)).belongings g) _ h1
  simp only [Machine.arm, permitAnswer, Answer.of]
  split
  · exact h1
  · split
    · exact h2
    · exact h.armChecked g _ h2

theorem WorkClosed.presentArm (g : GroupIx) : Keeps P fun s => (Machine.presentArm g s).state := by
  intro s hs
  simp only [Machine.presentArm, keySequence, permitAnswer, Answer.of]
  split
  · exact hs
  · exact h.arm g s hs
  · exact hs
  · next hl =>
    split
    · exact h.trip _ s hs
    · exact h.service g s.permits[g].lapse true s hl hs

theorem WorkClosed.presentRun (g : GroupIx) : Keeps P fun s => (Machine.presentRun g s).state := by
  intro s hs
  have h1 := h.touch .permit (.group g) s hs
  simp only [Machine.presentRun, keySequence, permitAnswer, Answer.of]
  split
  · exact hs
  · exact hs
  · split
    · exact h.changePermit g .live _ .run (by decide) (by simp) _ h1
    · exact h1
  · split
    · split
      · next hl => exact h.service g _ false _ hl h1
      · exact h1
    · exact h.trip _ s hs

theorem WorkClosed.presentOther (g : GroupIx) : Keeps P fun s => (Machine.presentOther g s).state := by
  intro s hs
  simp only [Machine.presentOther, keySequence, permitAnswer, Answer.of]
  split
  · exact hs
  · exact hs
  · exact hs
  · exact h.trip _ s hs

theorem WorkClosed.takeSampled (g : GroupIx) : Keeps P (State.takeSampled g) := by
  intro s hs
  unfold State.takeSampled
  split
  · exact hs
  · exact hs
  all_goals exact keeps_foldl _ (fun s r hs => h.trip r s hs) _ _ (h.takeRequest _ s hs)

theorem WorkClosed.parkTaken (g : GroupIx) : Keeps P fun s => (Machine.parkTaken g s).state := by
  intro s hs
  have h1 := h.touch .permit (.group g) s hs
  simp only [Machine.parkTaken, permitAnswer, Answer.of]
  split
  · exact hs
  · exact hs
  · exact h.changePermit g .disarmed 0 .parked (by decide) (fun _ => rfl) s hs
  · split
    · exact h1
    · split
      · exact h1
      · exact h.changePermit g .disarmed 0 .parked (by decide) (fun _ => rfl) _ (h.purge g _ h1)

theorem WorkClosed.parkGroup (g : GroupIx) : Keeps P fun s => (Machine.parkGroup g s).state := fun s hs =>
  h.parkTaken g _ (h.takeSampled g s hs)

theorem WorkClosed.forceTripGroup (g : GroupIx) : Keeps P fun s => (Machine.forceTripGroup g s).state :=
  fun s hs => h.trip _ s hs

theorem WorkClosed.clearAccepted (g : GroupIx) : Keeps P (State.clearAccepted g) := fun s hs =>
  h.changePermit g .disarmed 0 .cleared (by decide) (fun _ => rfl) _
    (h.removeStops _ _ (h.creep g _ _ (h.notes g (fun p => { p with cause := none, origin := none, age := 0 })
      (fun _ => ⟨rfl, rfl, rfl⟩) _ (h.touch .trip (.group g) s hs))))

theorem WorkClosed.clearTripGroup (g : GroupIx) : Keeps P fun s => (Machine.clearTripGroup g s).state := by
  intro s hs
  have h1 := h.touch .permit (.group g) s hs
  simp only [Machine.clearTripGroup, permitAnswer, Answer.of]
  repeat' split
  all_goals first
    | exact hs
    | exact h1
    | exact h.clearAccepted g _ h1

/-! ### Zones -/

theorem WorkClosed.readMemberExtents (b : ReadingBlock) (g : GroupIx) : Keeps P (State.readMemberExtents b g) :=
  fun s hs => h.touchAll b _ s hs

theorem WorkClosed.releaseAccepted (z : ZoneIx) (g : GroupIx) (way : ZoneWay) :
    Keeps P (State.releaseAccepted z g way) := fun s hs =>
  h.post _ _ (h.filterQueue _ _ (h.readMemberExtents .admission g _ (h.zones _ s hs)))

theorem WorkClosed.release (z : ZoneIx) (g : GroupIx) (way : ZoneWay) : Keeps P fun s => (s.release z g way).1 := by
  intro s hs
  have h1 := h.readMemberExtents .zone g s hs
  simp only [State.release]
  split
  · split
    · exact h1
    · exact h.releaseAccepted z g way _ h1
  · exact hs

theorem WorkClosed.claim (z : ZoneIx) (g : GroupIx) : Keeps P fun s => (Machine.claim z g s).state := by
  intro s hs
  have h1 := h.touch .zone (.group g) s hs
  simp only [Machine.claim, Answer.ok, Answer.refuse, Answer.of]
  split
  · exact h1
  · split
    · exact h.post _ _ (h.zones _ _ h1)
    · split <;> exact h1

theorem WorkClosed.releaseRequest (z : ZoneIx) (g : GroupIx) : Keeps P fun s => (Machine.releaseRequest z g s).state := by
  intro s hs
  have h1 : P (s.release z g .release).1 := h.release z g .release s hs
  simp only [Machine.releaseRequest, Answer.ok, Answer.refuse, Answer.of]
  split
  all_goals
    next he => rw [he] at h1; exact h1

theorem WorkClosed.readZone (z : ZoneIx) : Keeps P fun s => (Machine.readZone z s).state := by
  intro s hs
  simp only [Machine.readZone, Answer.ok, Answer.of]
  split
  · exact hs
  · next g _ =>
    have h1 := h.readMemberExtents .zone g s hs
    split <;> exact h1

/-! ### Link checks and creep runs -/

theorem WorkClosed.linkCheck (a : AxisIx) : Keeps P fun s => (Machine.linkCheck a s).state := by
  intro s hs
  have h1 := h.touch .check (.axis a) s hs
  simp only [Machine.linkCheck, Answer.ok, Answer.refuse, Answer.of]
  split
  · exact hs
  · split
    · exact h1
    · next hu =>
      split
      · exact h1
      · split
        · exact h1
        · next hp =>
          split
          · next sg hsg =>
            have hf : (s.touch .check (.axis a)).checks[sg].inFlight = false := by
              simp only [State.underCheck, hsg] at hu
              by_contra hc
              rw [if_pos (Bool.eq_true_of_not_eq_false hc)] at hu
              exact absurd hu (by simp)
            exact h.startCheck sg a _ hf (Bool.eq_false_of_not_eq_true hp) h1
          · exact h1

theorem WorkClosed.judged (sg : SegIx) (f : EchoFrame) (j : Judgement) : Keeps P (State.judged sg f j) := by
  intro s hs
  unfold State.judged
  split
  · exact h.stale sg s hs
  · exact h.endCheck _ _ _ _ (h.axis _ _ _ hs)
  · exact h.endCheck _ _ _ _ hs

theorem WorkClosed.takeEcho (sg : SegIx) (f : EchoFrame) : Keeps P (State.takeEcho sg f) := by
  intro s hs
  have h1 := h.touch .check (.axis f.axis) s hs
  simp only [State.takeEcho]
  split
  · exact hs
  · split
    · exact h.judged _ _ _ _ h1
    · exact h1

theorem WorkClosed.creepStart (d : Word16) (g : GroupIx) : Keeps P fun s => (Machine.creepStart d g s).state := by
  intro s hs
  have h1 := h.touch .check (.group g) s hs
  simp only [Machine.creepStart, Answer.ok, Answer.refuse, Answer.of]
  repeat' split
  all_goals first
    | exact h1
    | exact h.creep _ _ _ h1

theorem WorkClosed.creepStop (g : GroupIx) : Keeps P fun s => (Machine.creepStop g s).state := by
  intro s hs
  simp only [Machine.creepStop, Answer.ok, Answer.refuse, Answer.of]
  repeat' split
  all_goals first
    | exact hs
    | exact h.finishCreep g s hs

theorem WorkClosed.addIncrement (g : GroupIx) (n : Nat) : Keeps P (State.addIncrement g n) := by
  intro s hs
  simp only [State.addIncrement]
  split
  · split
    · exact h.creep _ _ _ hs
    · exact h.endCreep h.trip g .saturated _ none (by decide) _ (h.creep _ _ _ hs)
  · exact hs

/-! ### Tables -/

theorem WorkClosed.readGroups (b : ReadingBlock) : Keeps P (State.readGroups b) := fun s hs => h.touchAll b _ s hs

theorem WorkClosed.stored (a : AxisIx) (f : AxisFields) (s : State) (ok : s.axisWriteOk a f) (hs : P s) :
    P (s.storeAxis a f) := by
  have h1 := h.drop a _ (h.abortChecks (· == a) (List.finRange 4) _ (h.axis a AxisRecord.written _
    (h.storeAxis a f s ok hs)))
  simp only [State.storeAxis]
  split
  · exact h.overtake a _ h1
  · exact h1

omit h in
/-- Correction leaves a read record as it is, and poisoning leaves it read, with the contents held. -/
theorem Stored.settled_kept {F : Type} (r : Stored F) (f : F) (h : r.settled ∧ r.held = f) :
    (r.outcome = .single → r.correct.settled ∧ r.correct.held = f) ∧ (r.poison.settled ∧ r.poison.held = f) := by
  obtain ⟨x, c, p⟩ := r
  cases p <;> cases c <;> simp_all [Stored.settled, Stored.correct, Stored.poison, Stored.outcome]

omit h in
/-- An axis entry that has been read stays as it was read. -/
theorem settled_tripClosed (b : AxisIx) (f : AxisFields) :
    TripClosed fun s => s.tables.axes[b].settled ∧ s.tables.axes[b].held = f := by
  have key : ∀ (e : EntryRef) (t : TableStore), (t.axes[b].settled ∧ t.axes[b].held = f) →
      (t.outcome e = .single → (t.noteCorrected e).axes[b].settled ∧ (t.noteCorrected e).axes[b].held = f) ∧
        ((t.notePoisoned e).axes[b].settled ∧ (t.notePoisoned e).axes[b].held = f) := by
    intro e t ht
    cases e <;>
      simp only [TableStore.noteCorrected, TableStore.notePoisoned, TableStore.modErrors, TableStore.correct,
        TableStore.poison, TableStore.outcome, EntryRef.table, upd, Fin.getElem_fin] at ht ⊢ <;>
      first
        | exact ⟨fun _ => ht, ht⟩
        | (simp only [Vector.getElem_set]
           split
           · next he => simp only [he]; exact Stored.settled_kept _ _ ht
           · exact ⟨fun _ => ht, ht⟩)
  exact
    { post := fun _ _ hs => hs
      corrected := fun e' s ho hs => (key e' s.tables hs).1 ho
      poisoned := fun e' s _ hs => (key e' s.tables hs).2
      close := fun sg s hs => by
        simp only [State.closeCheck]
        split <;> exact hs
      drop := fun _ _ hs => hs
      stop := fun _ _ _ hs => hs
      purge := fun _ _ hs => hs
      creepEnd := fun _ _ _ _ _ hs => hs
      record := fun _ _ _ _ hs => hs
      send := fun _ _ hs => hs
      toTripped := fun _ _ _ hs => hs
      further := fun _ _ _ hs => hs
      draw := fun _ hs => hs }

omit h in
/-- A checked read leaves its axis entry read. -/
theorem settled_touch (b : ReadingBlock) (a : AxisIx) (s : State) :
    (s.touch b (.axis a)).tables.axes[a].settled := by
  unfold State.touch State.touchWith
  split
  · next ho =>
    simp only [TableStore.outcome, Stored.outcome] at ho
    simp only [Stored.settled]
    repeat' split at ho
    all_goals simp_all
  · next ho =>
    simp only [TableStore.outcome, Stored.outcome] at ho
    simp only [Stored.settled]
    repeat' split at ho
    all_goals simp_all
  · next ho =>
    refine ((settled_tripClosed a (s.tables.axes[a].correct.held)).post _ _ ⟨?_, ?_⟩).1
    · simp only [State.modTables_tables, TableStore.noteCorrected, TableStore.modErrors, TableStore.correct,
        EntryRef.table, upd, Fin.getElem_fin, Vector.getElem_set_self]
      simp only [TableStore.outcome, Stored.outcome, Fin.getElem_fin] at ho
      generalize s.tables.axes[a.val] = r at ho
      obtain ⟨x, c, p⟩ := r
      cases p <;> cases c <;> simp_all [Stored.settled, Stored.correct]
    · simp only [State.modTables_tables, TableStore.noteCorrected, TableStore.modErrors, TableStore.correct,
        EntryRef.table, upd, Fin.getElem_fin, Vector.getElem_set_self]
  · next ho =>
    have hk := settled_tripClosed a (s.tables.axes[a].held)
    refine (hk.afterPoison (.axis a) _ (TripClosed.tableFault hk.trip (.axis a) _ _ (hk.post _ _ ⟨?_, ?_⟩))).1 <;>
      simp [TableStore.notePoisoned, TableStore.modErrors, TableStore.poison, EntryRef.table, upd, Stored.poison,
        Stored.settled]

omit h in
/-- Checked reads of several entries leave each axis entry among them read. -/
theorem settled_touchAll (b : ReadingBlock) (es : List EntryRef) (s : State) (a : AxisIx) (he : .axis a ∈ es) :
    (s.touchAll b es).tables.axes[a].settled := by
  unfold State.touchAll
  induction es generalizing s with
  | nil => exact absurd he (by simp)
  | cons x es ih =>
    rw [List.foldl_cons]
    rcases List.mem_cons.mp he with hx | hx
    · subst hx
      have hk := settled_tripClosed a ((s.touch b (.axis a)).tables.axes[a].held)
      exact (keeps_foldl _ (fun s y hs => hk.touch b y s hs) es _ ⟨settled_touch b a s, rfl⟩).1
    · exact ih _ hx

omit h in
/-- One more checked read changes nothing that a write's uniqueness test has read. -/
theorem axisWriteOk_touch (b : ReadingBlock) (e : EntryRef) (a : AxisIx) (f : AxisFields) (s : State)
    (ok : s.stationTaken a f = false ∧ s.othersRead a) :
    (s.touch b e).stationTaken a f = false ∧ (s.touch b e).othersRead a := by
  have same : ∀ k : AxisIx, k ≠ a → (s.touch b e).tables.axes[k].settled ∧
      (s.touch b e).tables.axes[k].held = s.tables.axes[k].held := fun k hk =>
    (settled_tripClosed k s.tables.axes[k].held).touch b e s ⟨ok.2 k hk, rfl⟩
  refine ⟨?_, fun k hk => (same k hk).1⟩
  rw [← Bool.not_eq_true, State.stationTaken, List.any_eq_true]
  rintro ⟨k, hm, hc⟩
  have hk : k ≠ a := by
    simp only [Bool.and_eq_true, bne_iff_ne] at hc
    exact hc.1.1.1
  refine absurd (List.any_eq_true.mpr ⟨k, hm, ?_⟩) (by rw [← State.stationTaken, ok.1]; decide)
  rw [(same k hk).2] at hc
  exact hc

theorem WorkClosed.writeAxis (f : AxisFields) (a : AxisIx) : Keeps P fun s => (Machine.writeAxis f a s).state := by
  intro s hs
  have h1 := h.touchAll .management (((List.finRange 64).filter (· != a)).map .axis) s hs
  simp only [Machine.writeAxis, Answer.ok, Answer.refuse, Answer.of]
  split
  · exact hs
  · split
    · exact hs
    · split
      · exact hs
      · split
        · next hr hv =>
          have hf : f.valid = false := by simpa using hv
          refine h.stored a f s ⟨fun _ => ?_, fun hc => absurd hc (by simp [hf])⟩ hs
          simpa [hf] using hr
        · split
          · exact hs
          · next hv hi =>
            split
            · exact h1
            · next hst =>
              refine h.stored a f _ ⟨fun hc => absurd hc (by simpa using hv), fun _ => ⟨by simpa using hi, ?_⟩⟩
                (h.touch _ _ _ h1)
              refine axisWriteOk_touch _ _ a f _ ⟨by simpa using hst, fun b hb => ?_⟩
              exact settled_touchAll .management _ s b (by simp [hb])

theorem WorkClosed.writeGroup (f : GroupFields) (g : GroupIx) : Keeps P fun s => (Machine.writeGroup f g s).state := by
  intro s hs
  have h1 := h.touchAll .management ((f.members.filterMap axisOfByte).map .axis) s hs
  simp only [Machine.writeGroup, Machine.writeGroupChecked, Answer.ok, Answer.refuse, Answer.of]
  split
  · exact hs
  · split
    · exact hs
    · split
      · exact hs
      · split
        · next hv => exact h.creep _ _ _ (h.storeGroup g f s (fun hc => absurd hc (by simpa using hv)) hs)
        · split
          · exact hs
          · next hr =>
            split
            · exact h1
            · split
              · exact h1
              · next hu hc =>
                split
                · exact h1
                · refine h.creep _ _ _ (h.storeGroup g f _ (fun _ => ⟨by simpa using hr, ?_, ?_, ?_⟩) h1)
                  · intro a ha
                    refine ⟨settled_touchAll .management _ s a (List.mem_map.mpr ⟨a, ha, rfl⟩), ?_⟩
                    by_contra hn
                    exact hu (List.any_eq_true.mpr ⟨a, ha, by simpa using hn⟩)
                  · intro b hb
                    have hall : f.members.all (fun b => (axisOfByte b).isSome) = true := by
                      simp only [GroupFields.inRange, Bool.not_eq_true', Bool.not_eq_false, Bool.and_eq_true] at hr
                      exact hr.1.1.1.1.1.1.2
                    exact (List.all_eq_true.mp hall) b hb
                  · intro a ha
                    by_contra hn
                    push Not at hn
                    refine hc (List.any_eq_true.mpr ⟨a, ha, ?_⟩)
                    cases hg : (s.touchAll .management ((f.members.filterMap axisOfByte).map .axis)).groupOf a with
                    | none => exact absurd hg hn.1
                    | some k =>
                      simp only [Option.any_some, bne_iff_ne, ne_eq]
                      exact fun hk => hn.2 (by rw [hg, hk])

theorem WorkClosed.storePairState (p : PairIx) (f : PairFields) : Keeps P (State.storePair p f) := fun s hs =>
  h.pair _ _ _ (h.storePair p f s hs)

theorem WorkClosed.writePair (f : PairFields) (p : PairIx) : Keeps P fun s => (Machine.writePair f p s).state := by
  intro s hs
  have h0 := h.touch .management (.pair p) s hs
  simp only [Machine.writePair, Machine.writePairChecked, Answer.ok, Answer.refuse, Answer.of]
  generalize s.touch .management (.pair p) = s1 at h0 ⊢
  split
  · exact h0
  · split
    · exact h.storePairState p f s1 h0
    · split
      · have h1 := fun l k => h.touchAll .management [.axis l, .axis k] s1 h0
        split
        · exact h1 _ _
        · split
          · exact h1 _ _
          · exact h.storePairState p f _ (h1 _ _)
      · exact h0

theorem WorkClosed.writeExtent (f : ExtentFields) (x : ExtentIx) : Keeps P fun s => (Machine.writeExtent f x s).state := by
  intro s hs
  have h1 := h.touch .management (.extent x) s hs
  simp only [Machine.writeExtent, Answer.ok, Answer.refuse, Answer.of]
  repeat' split
  all_goals first
    | exact h1
    | exact h.storeExtent _ _ _ h1

theorem WorkClosed.writeWaypoint (w : Option (Option Waypoint)) (a : AxisIx) :
    Keeps P fun s => (Machine.writeWaypoint w a s).state := by
  intro s hs
  simp only [Machine.writeWaypoint, Answer.ok, Answer.refuse, Answer.of]
  split
  · exact hs
  · exact h.waypoints _ s hs

theorem WorkClosed.sendInputs (w : TripSender) (l : LineIx) (also : Option GroupIx) : Keeps P (State.sendInputs w l also) :=
  fun _ hs => keeps_foldl _ (fun s _ hs => h.sendAny _ _ s hs) _ _ hs

theorem WorkClosed.evaluateLine (w : TripSender) (l : LineIx) : Keeps P (State.evaluateLine w l) := by
  intro s hs
  simp only [State.evaluateLine]
  split
  · exact h.sendInputs _ _ _ _ hs
  · exact hs

theorem WorkClosed.evaluateLineAgainst (race : Option GroupIx) (l : LineIx) :
    Keeps P (State.evaluateLineAgainst race l) := by
  intro s hs
  cases race with
  | none => exact h.evaluateLine _ l s hs
  | some g =>
    simp only [State.evaluateLineAgainst]
    split
    · exact h.sendInputs _ _ _ _ (h.draw s hs)
    · exact hs

theorem WorkClosed.writeInput (level groups : Byte) (l : LineIx) :
    Keeps P fun s => (Machine.writeInput level groups l s).state := by
  intro s hs
  simp only [Machine.writeInput, Answer.ok, Answer.refuse, Answer.of]
  split
  · exact hs
  · exact h.evaluateLine _ _ _ (h.inputs _ s hs)

theorem WorkClosed.writeSettings (f : Settings) (k : Fin 1) : Keeps P fun s => (Machine.writeSettings f k s).state := by
  intro s hs
  have h1 := h.readGroups .management s hs
  simp only [Machine.writeSettings, Answer.ok, Answer.refuse, Answer.of]
  split
  · exact hs
  · next hr =>
    have hr' : f.inRange = true := by simpa using hr
    split
    · exact h.settings f hr' s hs
    · split
      · dsimp only
        exact h1
      · exact h.settings f hr' _ h1

theorem WorkClosed.writeSchedule (src : Byte) (k : Fin 32) : Keeps P fun s => (Machine.writeSchedule src k s).state := by
  intro s hs
  simp only [Machine.writeSchedule, Answer.ok, Answer.refuse, Answer.of]
  split
  · exact hs
  · next hp =>
    split
    · exact hs
    · exact h.shadow k _ s (Bool.eq_false_of_not_eq_true hp) hs

/-! ### The management unit's own requests -/

theorem WorkClosed.loadSchedule : Keeps P fun s => (Machine.loadSchedule s).state := by
  intro s hs
  simp only [Machine.loadSchedule, Answer.ok, Answer.refuse, Answer.of]
  split
  · exact hs
  · split
    · exact hs
    · next hm =>
      have h1 := h.setPending s hm hs
      split
      · refine h.loadIdle { s with cl := s.cl.setPending } ?_ h1
        rfl
      · exact h1

theorem WorkClosed.readTripRecord : Keeps P fun s => (Machine.readTripRecord s).state := by
  intro s hs
  simp only [Machine.readTripRecord]
  split <;> exact h.readPtr _ s hs

theorem WorkClosed.rewindTripRecords : Keeps P fun s => (Machine.rewindTripRecords s).state :=
  fun s hs => h.readPtr _ s hs

/-! ### Admission -/

theorem WorkClosed.holdInPlace (s : State) (a : AxisIx) (hs : P s) : P (s.holdInPlace a) := by
  unfold State.holdInPlace
  split
  · split
    · exact hs
    · exact h.enqueue _ _ hs
  · exact hs

theorem WorkClosed.refuseSetpoint (a : AxisIx) (r : RefusalReason) (p : SetpointPayload) (f : Option AxisIx) :
    Keeps P (State.refuseSetpoint a r p f) := by
  intro s hs
  unfold State.refuseSetpoint
  split
  · exact hs
  · exact h.axis _ _ _ (h.post _ _ hs)

theorem WorkClosed.admitHold (a : AxisIx) (p : SetpointPayload) : Keeps P (State.admitHold a p) := by
  intro s hs
  have h1 := h.touch .admission (.axis a) s hs
  simp only [State.admitHold, State.queueRest]
  repeat' split
  all_goals first
    | exact h.refuseSetpoint _ _ _ _ _ h1
    | exact h.enqueue _ _ h1

theorem WorkClosed.admitBrake (a : AxisIx) (p : SetpointPayload) : Keeps P (State.admitBrake a p) := by
  intro s hs
  have h1 := h.touch .admission (.axis a) s hs
  simp only [State.admitBrake, State.queueRest]
  repeat' split
  all_goals first
    | exact h.refuseSetpoint _ _ _ _ _ h1
    | exact h.enqueue _ _ h1

theorem WorkClosed.refusePosition (a : AxisIx) (axes : List AxisIx) (p : SetpointPayload) (r : RefusalReason) :
    Keeps P (State.refusePosition a axes p r) := by
  intro s hs
  simp only [State.refusePosition]
  split
  · exact h.refuseSetpoint _ _ _ _ _ hs
  · exact h.refuseSetpoint _ _ _ _ _ (keeps_foldl _ (fun s a hs => h.holdInPlace s a hs) _ _ hs)

theorem WorkClosed.countClamps (ms : List Mover) (x : Int) (q : Word32) : Keeps P (State.countClamps ms x q) := by
  intro s hs
  unfold State.countClamps
  split
  · exact hs
  · exact keeps_foldl _ (fun s _ hs => h.axis _ _ s hs) _ _ hs

omit h in
theorem runChecks_keeps (cs : List Check) (hc : ∀ c ∈ cs, ∀ s, P s → P (c s).1) :
    ∀ s, P s → P (runChecks cs s).1 := by
  induction cs with
  | nil => intro s hs; exact hs
  | cons c cs ih =>
    intro s hs
    have h1 := hc c (by simp) s hs
    unfold runChecks
    split
    · next he => rw [he] at h1; exact h1
    · next he =>
      rw [he] at h1
      exact ih (fun c hm => hc c (by simp [hm])) _ h1

theorem WorkClosed.lastChecks (x : Int) (ms : List Mover) :
    ∀ c ∈ Machine.lastChecks x ms, ∀ s, P s → P (c s).1 := by
  intro c hc s hs
  simp only [Machine.lastChecks, List.mem_flatMap, List.mem_cons, List.not_mem_nil, or_false] at hc
  obtain ⟨m, _, rfl | rfl⟩ := hc
  · exact hs
  · exact h.touchAll _ _ s hs

theorem WorkClosed.judgeTarget (a : AxisIx) (axes : List AxisIx) (p : SetpointPayload) :
    Keeps P (State.judgeTarget a axes p) := by
  intro s hs
  simp only [State.judgeTarget]
  generalize axes.filterMap s.mover = ms
  generalize nearest (stepLow ms) (stepHigh ms) p.target.toInt = x
  split
  · exact h.refusePosition _ _ _ _ _ hs
  · have h1 := runChecks_keeps _ (h.lastChecks x ms) _ (h.countClamps ms x p.target s hs)
    split
    all_goals
      next he =>
        rw [he] at h1
        first
          | exact h.refusePosition _ _ _ _ _ h1
          | exact keeps_foldl _ (fun s m hs => h.axis _ _ _ (h.enqueue _ _ hs)) _ _ h1

theorem WorkClosed.firstChecks (taken : State) (a : AxisIx) (axes : List AxisIx) :
    ∀ c ∈ Machine.firstChecks taken a axes, ∀ s, P s → P (c s).1 := by
  intro c hc s hs
  simp only [Machine.firstChecks, List.mem_append, List.mem_map, List.mem_singleton] at hc
  rcases hc with ((((⟨b, _, rfl⟩ | ⟨b, _, rfl⟩) | ⟨b, _, rfl⟩) | ⟨b, _, rfl⟩) | rfl) | ⟨b, _, rfl⟩
  · exact h.touch _ _ s hs
  · exact hs
  · exact hs
  · exact h.touchAll _ _ s hs
  · exact hs
  · exact hs

theorem WorkClosed.admitPosition (a : AxisIx) (p : SetpointPayload) : Keeps P (State.admitPosition a p) := by
  intro s hs
  have h0 : P (s.readPair a) := by
    unfold State.readPair
    split
    · exact h.touch _ _ s hs
    · exact hs
  have h1 := runChecks_keeps _ (h.firstChecks s a (a :: ((s.readPair a).unitFollow a).toList)) _ h0
  simp only [State.admitPosition]
  split
  · next he => rw [he] at h1; exact h.refusePosition _ _ _ _ _ h1
  · next he => rw [he] at h1; exact h.judgeTarget _ _ _ _ h1

/-! ### The sample monitor -/

theorem WorkClosed.sendCauses (t : Taken) (cs : List Cause) : Keeps P (State.sendCauses t cs) := by
  intro s hs
  unfold State.sendCauses
  split
  · exact keeps_foldl _ (fun s _ hs => h.sendAny _ _ s hs) _ _ hs
  · exact hs

theorem WorkClosed.intrusion (t : Taken) (x : Option ExtentIx) : Keeps P (State.intrusion t x) := by
  intro s hs
  unfold State.intrusion
  split
  · exact h.axis _ _ s hs
  · simp only
    split
    · exact h.axis _ _ s hs
    · exact h.post _ _ (h.axis _ _ s hs)

theorem WorkClosed.envelopeStep (t : Taken) (f : AxisFields) : Keeps P (State.envelopeStep t f) := fun s hs =>
  h.intrusion _ _ _ (h.sendCauses _ _ _ (h.touchAll _ _ s hs))

theorem WorkClosed.skewRequest (t : Taken) (p : PairIx) (f : PairFields) (k : Int) :
    Keeps P (State.skewRequest t p f k) := by
  intro s hs
  unfold State.skewRequest
  split
  · split
    · exact h.sendAny _ _ s hs
    · exact hs
  · exact hs

theorem WorkClosed.recordSkew (p : PairIx) (f : PairFields) (k : Int) (c : Word16) :
    Keeps P (State.recordSkew p f k c) := by
  intro s hs
  simp only [State.recordSkew]
  split
  · exact h.pair _ _ s hs
  · exact h.post _ _ (h.pair _ _ s hs)

theorem WorkClosed.takeSent (w : TripSender) : Keeps P (State.takeSent w) := fun s hs =>
  keeps_foldl _ (fun s p hs => h.trip p.2 s hs) _ _ (h.takeRequest _ s hs)

theorem WorkClosed.touchSkew (s : State) (e : EntryRef) (hs : P s) : P (s.touchSkew e) :=
  h.touchWith (fun r s hs => h.trip r _ (h.takeSent .sampleMonitor s hs)) .monitor e s hs

theorem WorkClosed.skewStep (t : Taken) : Keeps P (State.skewStep t) := by
  intro s hs
  unfold State.skewStep
  split
  · exact hs
  · split
    · exact h.touchSkew _ _ hs
    · have h1 := fun p b => h.touchSkew _ (.axis b) (h.touchSkew s (.pair p) hs)
      simp only
      split
      · split
        · exact h.recordSkew _ _ _ _ _ (h.skewRequest _ _ _ _ _ (h1 _ _))
        · exact h1 _ _
      · exact h1 _ _

theorem WorkClosed.autoRelease (t : Taken) (w : Waypoint) : Keeps P fun s => (s.autoRelease t w).1 := by
  intro s hs
  simp only [State.autoRelease]
  split
  · exact hs
  · split
    · exact hs
    · exact h.release _ _ _ s hs

theorem WorkClosed.waypointStep (t : Taken) : Keeps P (State.waypointStep t) := by
  intro s hs
  unfold State.waypointStep
  split
  · split
    · exact h.waypoints _ _ (h.post _ _ (h.autoRelease t _ s hs))
    · exact hs
  · exact hs

theorem WorkClosed.creepStep (t : Taken) : Keeps P (State.creepStep t) := by
  intro s hs
  unfold State.creepStep
  split
  · split
    · exact h.addIncrement _ _ s hs
    · exact hs
  · exact hs

theorem WorkClosed.forwardStep (t : Taken) (f : AxisFields) : Keeps P (State.forwardStep t f) := by
  intro s hs
  unfold State.forwardStep
  split
  · split
    · exact h.forward _ _ s hs
    · exact hs
  · exact hs

theorem WorkClosed.judgeSample (t : Taken) (f : AxisFields) : Keeps P (State.judgeSample t f) := fun s hs =>
  h.forwardStep t f _ (h.creepStep t _ (h.waypointStep t _ (h.skewStep t _ (h.envelopeStep t f s hs))))

theorem WorkClosed.acceptSample (f : SampleFrame) : Keeps P (State.acceptSample f) := by
  intro s hs
  have h1 := h.touch .monitor (.axis f.axis) s hs
  simp only [State.acceptSample]
  split
  · exact h.axis _ _ _ h1
  · exact h.judgeSample _ _ _ (h.axis _ _ _ h1)

theorem WorkClosed.takeSample (f : SampleFrame) : Keeps P (State.takeSample f) := by
  intro s hs
  unfold State.takeSample
  split
  · exact hs
  · split
    · exact h.acceptSample f s hs
    · exact h.axis _ _ s hs

/-! ### Ports and lines -/

theorem WorkClosed.countBad (p : PortId) : Keeps P (State.countBad p) := by
  intro s hs
  cases p with
  | seg n => exact h.segPort n (fun q => { q with port := q.port.countBad }) s hs
  | cl => exact h.clPort (fun q => { q with port := q.port.countBad }) s hs

theorem WorkClosed.validFrame (p : PortId) : Keeps P (State.validFrame p) := by
  intro s hs
  have h1 := fun f => h.modPort p f s hs
  simp only [State.validFrame]
  split
  · exact h1 _
  · exact h.post _ _ (h1 _)

theorem WorkClosed.changeLevel (l : LineIx) (level : Level) : Keeps P (State.changeLevel l level) := by
  intro s hs
  simp only [State.changeLevel]
  split
  · exact hs
  · exact h.evaluateLineAgainst _ _ _ (h.post _ _ (h.inputs _ s hs))

theorem WorkClosed.evaluateLines : Keeps P State.evaluateLines := fun s hs =>
  keeps_foldl _ (fun s l hs => h.evaluateLine _ l s hs) _ _ (h.inFreeOrder _ s hs)

end

end Sys2Proof.Machine
end

