-- ==== Sys2Proof/Laws/Steps.lean ====
section
/-! SUPPORT. Everything a step can do, said once: a property kept by the primitive changes of WorkClosed and StepClosed
is kept by every command and by every step. -/

namespace Sys2Proof.Machine

/-- Cycle start of the timer, with the five draws of its orders. -/
def State.beginCycle (s : State) : State := State.advanceCycle { s with freeCount := s.freeCount + 5 }

/-- The property is kept by every primitive change of a step. -/
structure StepClosed (P : State → Prop) : Prop extends WorkClosed P where
  popRequest : Keeps P State.popRequest
  pushReply : ∀ r s, s.cl.replies.length < Config.replyCapacity → P s → P (s.pushReply r)
  queueRequest : ∀ r, Keeps P (State.queueRequest r)
  pathSetpoint : ∀ f, Keeps P (State.pathSetpoint f)
  pathSample : ∀ sg f, Keeps P (State.pathSample sg f)
  pathEcho : ∀ sg f, Keeps P (State.pathEcho sg f)
  popSetpoint : ∀ f rest s, s.paths.setpoint = f :: rest → P s →
    P { s with paths := { s.paths with setpoint := rest } }
  popSample : ∀ (sg : SegIx) f rest s, s.paths.sample[sg] = f :: rest → P s →
    P { s with paths := { s.paths with sample := s.paths.sample.set sg rest } }
  popEcho : ∀ (sg : SegIx) f rest s, s.paths.echo[sg] = f :: rest → P s →
    P { s with paths := { s.paths with echo := s.paths.echo.set sg rest } }
  endSegment : ∀ sg : SegIx, Keeps P (State.modEgress fun e => { e with tx := e.tx.set sg none })
  endCl : Keeps P (State.onCl ClSide.endTransmission)
  pending : ∀ l, Keeps P fun s => { s with pending := l }
  cycle : Keeps P fun s => s.elapse.beginCycle
  clock : ∀ s, s.advanceClock.timer.phase.toNat < s.advanceClock.timer.period.toNat → P s → P s.advanceClock
  clockEnd : Keeps P fun s => s.advanceClock.beginCycle
  beginReset : ∀ s, s.validNotDisarmed = none → P s → P s.beginReset
  resetBlock : ∀ b s, b ≠ .trip → s.resets ≠ [] → P s → P (s.resetBlock b)
  resetStops : Keeps P (State.modEgress fun e => { e with stopSet := Vector.replicate 4 [] })
  doneReset : ∀ b, Keeps P (State.doneReset b)
  pinReset : ∀ pins, Keeps P (State.pinReset pins)

/-- A request's work keeps whatever the primitive changes keep. -/
def WorkKeeps (w : State → Answer) : Prop := ∀ Q : State → Prop, WorkClosed Q → Keeps Q fun s => (w s).state

theorem workKeeps_withIndex {n : Nat} {b : Byte} {f : Fin n → State → Answer} (hf : ∀ i, WorkKeeps (f i)) :
    WorkKeeps fun s => withIndex n b s f := by
  intro Q hQ s hs
  simp only [withIndex]
  split
  · exact hf _ Q hQ s hs
  · exact hs

theorem kick_replies (ctx : PostContext) (c : ClSide) : (c.kick ctx).replies.length ≤ c.replies.length := by
  have ht : ∀ (c : ClSide) (x : Source), (c.takeFrom x).replies.length ≤ c.replies.length := by
    intro c x
    cases x with
    | reply => simp only [ClSide.takeFrom]; split <;> simp_all
    | report => simp only [ClSide.takeFrom]; split <;> simp_all
    | seg n => simp only [ClSide.takeFrom]; split <;> simp_all
  have hp : ∀ (c : ClSide) k, (c.takeFound k).replies.length ≤ c.replies.length := by
    intro c k
    cases k with
    | none => exact le_refl _
    | some k => exact ht c _
  have hl : ∀ (c : ClSide) w, (c.load ctx w).replies = c.replies := by
    intro c w
    simp only [ClSide.load, ClSide.queueReport, ClSide.placeReport]
    repeat' split
    all_goals rfl
  unfold ClSide.kick
  split
  · simp only [ClSide.select]
    split
    · exact (hp _ _).trans_eq (by rw [hl])
    · split
      · exact ht c _
      · split
        · exact (hp _ _).trans_eq (by rw [hl])
        · exact hp _ _
  · exact le_refl _

theorem queueReport_replies (ctx : PostContext) (b : ReportBody) (c : ClSide) :
    (c.queueReport ctx b).replies = c.replies := by
  simp only [ClSide.queueReport, ClSide.placeReport]
  repeat' split
  all_goals rfl

theorem post_replies (ctx : PostContext) (b : ReportBody) (c : ClSide) :
    (ClSide.post ctx b c).replies.length ≤ c.replies.length :=
  (kick_replies ctx _).trans_eq (by rw [queueReport_replies])

theorem loadIdle_replies (ctx : PostContext) (c : ClSide) : (ClSide.loadIdle ctx c).replies.length ≤ c.replies.length :=
  (kick_replies ctx _).trans_eq (by simp only [ClSide.load, queueReport_replies])

/-- The reply queue does not grow. -/
def NoMoreReplies (s₀ s : State) : Prop := s.cl.replies.length ≤ s₀.cl.replies.length

theorem noMoreReplies_tripClosed (s₀ : State) : TripClosed (NoMoreReplies s₀) where
  post := fun b s h => (post_replies _ b s.cl).trans h
  corrected := fun _ _ _ h => h
  poisoned := fun _ _ _ h => h
  close := fun sg s h => by
    unfold State.closeCheck
    simp only
    split <;> exact h
  drop := fun _ _ h => h
  stop := fun _ _ _ h => h
  purge := fun _ _ h => h
  creepEnd := fun _ _ _ _ _ h => h
  record := fun _ _ _ _ h => h
  send := fun _ _ h => h
  toTripped := fun _ _ _ h => h
  further := fun _ _ _ h => h
  draw := fun _ h => h

theorem noMoreReplies_workClosed (s₀ : State) : WorkClosed (NoMoreReplies s₀) where
  toTripClosed := noMoreReplies_tripClosed s₀
  transmit := fun _ _ _ h => h
  unstop := fun _ _ _ h => h
  unbeacon := fun _ _ h => h
  dequeue := fun _ _ h => h
  sendCheck := sendCheck_keeps (noMoreReplies_tripClosed s₀) (fun _ _ _ h => h) (fun _ _ h => h) (fun _ _ h => h)
  permit := fun _ _ _ _ _ _ h => h
  service := fun _ _ _ _ _ h => h
  notes := fun _ _ _ _ h => h
  creep := fun _ _ _ h => h
  removeStops := fun _ _ h => h
  filterQueue := fun _ _ h => h
  zones := fun _ _ h => h
  startCheck := fun _ _ _ _ _ h => h
  stale := fun _ _ h => h
  axis := fun _ _ _ h => h
  pair := fun _ _ _ h => h
  waypoints := fun _ _ h => h
  inputs := fun _ _ h => h
  settings := fun _ _ _ h => h
  takeRequest := fun _ _ h => h
  storeAxis := fun _ _ _ _ h => h
  storeGroup := fun _ _ _ _ h => h
  storePair := fun _ _ _ h => h
  storeExtent := fun _ _ _ h => h
  overtake := fun _ _ h => h
  shadow := fun _ _ _ _ h => h
  setPending := fun _ _ h => h
  loadIdle := fun s _ h => (loadIdle_replies _ s.cl).trans h
  readPtr := fun _ _ h => h
  clearCounters := fun _ h => h
  sendAny := fun _ _ _ h => h
  enqueue := fun e s h => by
    unfold State.enqueue
    split <;> exact h
  forward := fun sg e s h => (kick_replies _ _).trans h
  segPort := fun _ _ _ h => h
  clPort := fun _ _ h => h
  decrement := fun _ _ _ h => h
  timeout := fun _ _ h => h
  scrubPos := fun _ _ h => h

section
variable {P : State → Prop} (h : StepClosed P)
include h

theorem StepClosed.reply (q : Request) (r : Answer) (hn : r.state.cl.replies.length < Config.replyCapacity) (hs : P r.state) :
    P (r.reply q) := by
  unfold Answer.reply State.replyCode
  cases q.code with
  | some c => exact h.pushReply _ _ hn hs
  | none => exact h.pushReply _ _ hn (h.draw _ hs)

theorem StepClosed.serve (handle : Demand → Option (State → Answer)) (hw : ∀ d w, handle d = some w → WorkKeeps w) :
    Keeps P (State.serve handle) := by
  intro s hs
  unfold State.serve State.takeable
  split
  · exact hs
  · next q hq =>
    split
    · exact hs
    · next w hd =>
      have hlt : s.cl.replies.length < Config.replyCapacity := by
        by_contra hc
        rw [if_neg (by simp [hc])] at hq
        exact absurd hq (by simp)
      have h1 := hw _ _ hd P h.toWorkClosed _ (h.popRequest s hs)
      have h2 : NoMoreReplies s.popRequest (w s.popRequest).state :=
        hw _ _ hd _ (noMoreReplies_workClosed s.popRequest) _ (le_refl _)
      exact h.settle _ (h.reply q _ (lt_of_le_of_lt h2 hlt) h1)

theorem StepClosed.resetNext : Keeps P State.resetNext := by
  intro s hs
  have h1 : P (s.pick s.readyResets).2 := h.pick s.readyResets s hs
  have hr : ∀ b, (s.pick s.readyResets).1 = some b → (s.pick s.readyResets).2.resets ≠ [] := by
    intro b hb hn
    have e : (s.pick s.readyResets).2.resets = s.resets := by
      unfold State.pick
      split <;> rfl
    rw [e] at hn
    simp [State.readyResets, hn, State.pick] at hb
  unfold State.resetNext
  split
  · next b s1 he =>
    rw [he] at h1 hr
    refine h.settle _ (h.doneReset b _ ?_)
    by_cases ht : b = .trip
    · subst ht
      exact h.evaluateLines _ (h.resetStops _ h1)
    · exact h.resetBlock b s1 ht (hr b rfl) h1
  · next s1 he =>
    rw [he] at h1
    exact h1

theorem StepClosed.resetFor : ∀ n, Keeps P (State.resetFor n) := by
  intro n
  induction n with
  | zero => intro s hs; exact hs
  | succ n ih => intro s hs; exact ih _ (h.resetNext s hs)

theorem StepClosed.finishResets : Keeps P State.finishResets := fun s hs => h.resetFor _ s hs

theorem StepClosed.tick : Keeps P State.tick := by
  intro s hs
  have h0 := h.settle _ (h.finishResets s hs)
  simp only [State.tick]
  split
  · exact h.cycleTasks _ _ (h.clockEnd _ h0)
  · next hlt => exact h.clock _ (Nat.lt_of_not_le hlt) h0

theorem StepClosed.receiveCl (bytes : List Byte) : Keeps P (State.receiveCl bytes) := by
  intro s hs
  unfold State.receiveCl
  split
  · next f _ =>
    have h1 := h.validFrame .cl s hs
    unfold State.routeCl
    split
    · exact h.pathSetpoint _ _ h1
    · split
      · exact h.queueRequest _ _ h1
      · exact h1
  · exact h.countBad _ s hs

theorem StepClosed.receiveSeg (sg : SegIx) (bytes : List Byte) : Keeps P (State.receiveSeg sg bytes) := by
  intro s hs
  unfold State.receiveSeg
  split
  · next f _ =>
    have h1 := h.validFrame (.seg sg) s hs
    unfold State.routeSeg
    split
    · unfold State.routeMapped
      repeat' split
      all_goals first
        | exact h1
        | exact h.pathSample _ _ _ h1
        | exact h.pathEcho _ _ _ h1
    · exact h.segPort _ _ _ h1
  · exact h.countBad _ s hs

theorem StepClosed.takeSetpoint (mode : Mode) (work : AxisIx → SetpointPayload → State → State)
    (hw : ∀ a p, Keeps P (work a p)) : Keeps P (State.takeSetpoint mode work) := by
  intro s hs
  unfold State.takeSetpoint
  split
  · exact hs
  · next f rest he =>
    have h1 := h.popSetpoint f rest s he hs
    simp only
    split
    · exact h.countBad _ _ h1
    · split
      · exact h.settle _ (hw _ _ _ h1)
      · exact hs

theorem StepClosed.takeSoftReset (q : Request) (s : State) (hn : s.cl.replies.length < Config.replyCapacity) (hs : P s) :
    P (s.takeSoftReset q) := by
  have h1 : P (s.popRequest.readGroups .permit) := h.readGroups .permit _ (h.popRequest s hs)
  have h2 : NoMoreReplies s.popRequest (s.popRequest.readGroups .permit) :=
    (noMoreReplies_workClosed s.popRequest).readGroups .permit _ (le_refl _)
  have h3 : (s.popRequest.readGroups .permit).cl.replies.length < Config.replyCapacity := lt_of_le_of_lt h2 hn
  unfold State.takeSoftReset
  generalize s.popRequest.readGroups .permit = s1 at *
  simp only
  split
  · next g _ => exact h.settle _ (h.reply q (Answer.refuse s1 .notDisarmed [natByte g]) h3 h1)
  · next hv =>
    refine h.settle _ (h.beginReset _ ?_ (h.reply q (Answer.ok s1 []) h3 h1))
    unfold Answer.reply State.replyCode
    split <;> exact hv

end

section
variable {P : State → Prop} (h : StepClosed P)
include h

theorem StepClosed.cycleStart : Keeps P fun s => s.finishResets.settle.elapse.cycleEvent := fun s hs =>
  h.cycleTasks _ _ (h.cycle _ (h.settle _ (h.finishResets s hs)))

theorem StepClosed.sampleEvent (sg : SegIx) (f : SampleFrame) (rest : List SampleFrame) (s : State)
    (he : s.paths.sample[sg] = f :: rest) (hs : P s) :
    P ({ s with paths := { s.paths with sample := s.paths.sample.set sg rest } }.takeSample f).settle :=
  h.settle _ (h.takeSample f _ (h.popSample sg f rest s he hs))

theorem StepClosed.echoEvent (sg : SegIx) (f : EchoFrame) (rest : List EchoFrame) (s : State)
    (he : s.paths.echo[sg] = f :: rest) (hs : P s) :
    P ({ s with paths := { s.paths with echo := s.paths.echo.set sg rest } }.takeEcho sg f).settle :=
  h.settle _ (h.takeEcho sg f _ (h.popEcho sg f rest s he hs))

theorem StepClosed.execUnknownRequest (s t : State) (ht : Machine.execUnknownRequest s = .next t) (hs : P s) : P t := by
  cases ht
  refine h.serve _ (fun d w hd => ?_) s hs
  split at hd
  · cases hd
    exact fun Q hQ s hs => hs
  · cases hd

theorem StepClosed.execReadEntryAxis (s t : State) (ht : Machine.execReadEntryAxis s = .next t) (hs : P s) : P t := by
  cases ht
  refine h.serve _ (fun d w hd => ?_) s hs
  split at hd
  · cases hd
    exact workKeeps_withIndex (fun a => fun Q hQ s hs => hQ.touch .management (.axis a) s hs)
  · cases hd

theorem StepClosed.execReadEntryGroup (s t : State) (ht : Machine.execReadEntryGroup s = .next t) (hs : P s) : P t := by
  cases ht
  refine h.serve _ (fun d w hd => ?_) s hs
  split at hd
  · cases hd
    exact workKeeps_withIndex (fun a => fun Q hQ s hs => hQ.touch .management (.group a) s hs)
  · cases hd

theorem StepClosed.execReadEntryPair (s t : State) (ht : Machine.execReadEntryPair s = .next t) (hs : P s) : P t := by
  cases ht
  refine h.serve _ (fun d w hd => ?_) s hs
  split at hd
  · cases hd
    exact workKeeps_withIndex (fun a => fun Q hQ s hs => hQ.touch .management (.pair a) s hs)
  · cases hd

theorem StepClosed.execReadEntryExtent (s t : State) (ht : Machine.execReadEntryExtent s = .next t) (hs : P s) : P t := by
  cases ht
  refine h.serve _ (fun d w hd => ?_) s hs
  split at hd
  · cases hd
    exact workKeeps_withIndex (fun a => fun Q hQ s hs => hQ.touch .management (.extent a) s hs)
  · cases hd

theorem StepClosed.execReadEntryZone (s t : State) (ht : Machine.execReadEntryZone s = .next t) (hs : P s) : P t := by
  cases ht
  refine h.serve _ (fun d w hd => ?_) s hs
  split at hd
  · cases hd
    exact workKeeps_withIndex (fun z => fun Q hQ => hQ.readZone z)
  · cases hd

theorem StepClosed.execReadEntryWaypoint (s t : State) (ht : Machine.execReadEntryWaypoint s = .next t) (hs : P s) : P t := by
  cases ht
  refine h.serve _ (fun d w hd => ?_) s hs
  split at hd
  · cases hd
    exact workKeeps_withIndex (fun _ => fun Q hQ s hs => hs)
  · cases hd

theorem StepClosed.execReadEntryInput (s t : State) (ht : Machine.execReadEntryInput s = .next t) (hs : P s) : P t := by
  cases ht
  refine h.serve _ (fun d w hd => ?_) s hs
  split at hd
  · cases hd
    exact workKeeps_withIndex (fun _ => fun Q hQ s hs => hs)
  · cases hd

theorem StepClosed.execReadEntrySettings (s t : State) (ht : Machine.execReadEntrySettings s = .next t) (hs : P s) : P t := by
  cases ht
  refine h.serve _ (fun d w hd => ?_) s hs
  split at hd
  · cases hd
    exact workKeeps_withIndex (fun _ => fun Q hQ s hs => hs)
  · cases hd

theorem StepClosed.execReadEntrySchedule (s t : State) (ht : Machine.execReadEntrySchedule s = .next t) (hs : P s) : P t := by
  cases ht
  refine h.serve _ (fun d w hd => ?_) s hs
  split at hd
  · cases hd
    exact workKeeps_withIndex (fun _ => fun Q hQ s hs => hs)
  · cases hd

theorem StepClosed.execWriteEntryAxis (s t : State) (ht : Machine.execWriteEntryAxis s = .next t) (hs : P s) : P t := by
  cases ht
  refine h.serve _ (fun d w hd => ?_) s hs
  split at hd
  · cases hd
    exact workKeeps_withIndex (fun a => fun Q hQ => hQ.writeAxis _ a)
  · cases hd

theorem StepClosed.execWriteEntryGroup (s t : State) (ht : Machine.execWriteEntryGroup s = .next t) (hs : P s) : P t := by
  cases ht
  refine h.serve _ (fun d w hd => ?_) s hs
  split at hd
  · cases hd
    exact workKeeps_withIndex (fun a => fun Q hQ => hQ.writeGroup _ a)
  · cases hd

theorem StepClosed.execWriteEntryPair (s t : State) (ht : Machine.execWriteEntryPair s = .next t) (hs : P s) : P t := by
  cases ht
  refine h.serve _ (fun d w hd => ?_) s hs
  split at hd
  · cases hd
    exact workKeeps_withIndex (fun a => fun Q hQ => hQ.writePair _ a)
  · cases hd

theorem StepClosed.execWriteEntryExtent (s t : State) (ht : Machine.execWriteEntryExtent s = .next t) (hs : P s) : P t := by
  cases ht
  refine h.serve _ (fun d w hd => ?_) s hs
  split at hd
  · cases hd
    exact workKeeps_withIndex (fun a => fun Q hQ => hQ.writeExtent _ a)
  · cases hd

theorem StepClosed.execWriteEntryZone (s t : State) (ht : Machine.execWriteEntryZone s = .next t) (hs : P s) : P t := by
  cases ht
  refine h.serve _ (fun d w hd => ?_) s hs
  split at hd
  · cases hd
    exact fun Q hQ s hs => hs
  · cases hd

theorem StepClosed.execWriteEntryWaypoint (s t : State) (ht : Machine.execWriteEntryWaypoint s = .next t) (hs : P s) : P t := by
  cases ht
  refine h.serve _ (fun d w hd => ?_) s hs
  split at hd
  · cases hd
    exact workKeeps_withIndex (fun a => fun Q hQ => hQ.writeWaypoint _ a)
  · cases hd

theorem StepClosed.execWriteEntryInput (s t : State) (ht : Machine.execWriteEntryInput s = .next t) (hs : P s) : P t := by
  cases ht
  refine h.serve _ (fun d w hd => ?_) s hs
  split at hd
  · cases hd
    exact workKeeps_withIndex (fun a => fun Q hQ => hQ.writeInput _ _ a)
  · cases hd

theorem StepClosed.execWriteEntrySettings (s t : State) (ht : Machine.execWriteEntrySettings s = .next t) (hs : P s) : P t := by
  cases ht
  refine h.serve _ (fun d w hd => ?_) s hs
  split at hd
  · cases hd
    exact workKeeps_withIndex (fun a => fun Q hQ => hQ.writeSettings _ a)
  · cases hd

theorem StepClosed.execWriteEntrySchedule (s t : State) (ht : Machine.execWriteEntrySchedule s = .next t) (hs : P s) : P t := by
  cases ht
  refine h.serve _ (fun d w hd => ?_) s hs
  split at hd
  · cases hd
    exact workKeeps_withIndex (fun a => fun Q hQ => hQ.writeSchedule _ a)
  · cases hd

theorem StepClosed.execPermitKeyKArm (s t : State) (ht : Machine.execPermitKeyKArm s = .next t) (hs : P s) : P t := by
  cases ht
  refine h.serve _ (fun d w hd => ?_) s hs
  split at hd
  · cases hd
    exact workKeeps_withIndex (fun g => fun Q hQ => hQ.presentArm g)
  · cases hd

theorem StepClosed.execPermitKeyKRun (s t : State) (ht : Machine.execPermitKeyKRun s = .next t) (hs : P s) : P t := by
  cases ht
  refine h.serve _ (fun d w hd => ?_) s hs
  split at hd
  · cases hd
    exact workKeeps_withIndex (fun g => fun Q hQ => hQ.presentRun g)
  · cases hd

theorem StepClosed.execPermitKeyOther (s t : State) (ht : Machine.execPermitKeyOther s = .next t) (hs : P s) : P t := by
  cases ht
  refine h.serve _ (fun d w hd => ?_) s hs
  split at hd
  · cases hd
    exact workKeeps_withIndex (fun g => fun Q hQ => hQ.presentOther g)
  · cases hd

theorem StepClosed.execPark (s t : State) (ht : Machine.execPark s = .next t) (hs : P s) : P t := by
  cases ht
  refine h.serve _ (fun d w hd => ?_) s hs
  split at hd
  · cases hd
    exact workKeeps_withIndex (fun g => fun Q hQ => hQ.parkGroup g)
  · cases hd

theorem StepClosed.execForceTrip (s t : State) (ht : Machine.execForceTrip s = .next t) (hs : P s) : P t := by
  cases ht
  refine h.serve _ (fun d w hd => ?_) s hs
  split at hd
  · cases hd
    exact workKeeps_withIndex (fun g => fun Q hQ => hQ.forceTripGroup g)
  · cases hd

theorem StepClosed.execClearTrip (s t : State) (ht : Machine.execClearTrip s = .next t) (hs : P s) : P t := by
  cases ht
  refine h.serve _ (fun d w hd => ?_) s hs
  split at hd
  · cases hd
    exact workKeeps_withIndex (fun g => fun Q hQ => hQ.clearTripGroup g)
  · cases hd

theorem StepClosed.execClaimZone (s t : State) (ht : Machine.execClaimZone s = .next t) (hs : P s) : P t := by
  cases ht
  refine h.serve _ (fun d w hd => ?_) s hs
  split at hd
  · cases hd
    exact workKeeps_withIndex (fun z => workKeeps_withIndex (fun g => fun Q hQ => hQ.claim z g))
  · cases hd

theorem StepClosed.execReleaseZone (s t : State) (ht : Machine.execReleaseZone s = .next t) (hs : P s) : P t := by
  cases ht
  refine h.serve _ (fun d w hd => ?_) s hs
  split at hd
  · cases hd
    exact workKeeps_withIndex (fun z => workKeeps_withIndex (fun g => fun Q hQ => hQ.releaseRequest z g))
  · cases hd

theorem StepClosed.execLinkCheck (s t : State) (ht : Machine.execLinkCheck s = .next t) (hs : P s) : P t := by
  cases ht
  refine h.serve _ (fun d w hd => ?_) s hs
  split at hd
  · cases hd
    exact workKeeps_withIndex (fun a => fun Q hQ => hQ.linkCheck a)
  · cases hd

theorem StepClosed.execCreepStart (s t : State) (ht : Machine.execCreepStart s = .next t) (hs : P s) : P t := by
  cases ht
  refine h.serve _ (fun d w hd => ?_) s hs
  split at hd
  · cases hd
    exact workKeeps_withIndex (fun g => fun Q hQ => hQ.creepStart _ g)
  · cases hd

theorem StepClosed.execCreepStop (s t : State) (ht : Machine.execCreepStop s = .next t) (hs : P s) : P t := by
  cases ht
  refine h.serve _ (fun d w hd => ?_) s hs
  split at hd
  · cases hd
    exact workKeeps_withIndex (fun g => fun Q hQ => hQ.creepStop g)
  · cases hd

theorem StepClosed.execCreepResult (s t : State) (ht : Machine.execCreepResult s = .next t) (hs : P s) : P t := by
  cases ht
  refine h.serve _ (fun d w hd => ?_) s hs
  split at hd
  · cases hd
    exact workKeeps_withIndex (fun _ => fun Q hQ s hs => hs)
  · cases hd

theorem StepClosed.execLoadSchedule (s t : State) (ht : Machine.execLoadSchedule s = .next t) (hs : P s) : P t := by
  cases ht
  refine h.serve _ (fun d w hd => ?_) s hs
  split at hd
  · cases hd
    exact fun Q hQ => hQ.loadSchedule
  · cases hd

theorem StepClosed.execReadTripRecord (s t : State) (ht : Machine.execReadTripRecord s = .next t) (hs : P s) : P t := by
  cases ht
  refine h.serve _ (fun d w hd => ?_) s hs
  split at hd
  · cases hd
    exact fun Q hQ => hQ.readTripRecord
  · cases hd

theorem StepClosed.execRewindTripRecords (s t : State) (ht : Machine.execRewindTripRecords s = .next t) (hs : P s) : P t := by
  cases ht
  refine h.serve _ (fun d w hd => ?_) s hs
  split at hd
  · cases hd
    exact fun Q hQ => hQ.rewindTripRecords
  · cases hd

theorem StepClosed.execReadStatus (s t : State) (ht : Machine.execReadStatus s = .next t) (hs : P s) : P t := by
  cases ht
  refine h.serve _ (fun d w hd => ?_) s hs
  split at hd
  · cases hd
    exact workKeeps_withIndex (fun _ => fun Q hQ s hs => hs)
  · cases hd

theorem StepClosed.execClearCounters (s t : State) (ht : Machine.execClearCounters s = .next t) (hs : P s) : P t := by
  cases ht
  refine h.serve _ (fun d w hd => ?_) s hs
  split at hd
  · cases hd
    exact fun Q hQ => hQ.clearCounters
  · cases hd

theorem StepClosed.execPinReset (pins : Vector Level 8) (s t : State) (ht : Machine.execPinReset pins s = .next t) (hs : P s) :
    P t := by
  cases ht
  exact h.pinReset pins s hs

theorem StepClosed.execCycleStart (s t : State) (ht : Machine.execCycleStart s = .next t) (hs : P s) :
    P t := by
  cases ht
  exact h.cycleStart s hs

theorem StepClosed.execAxisLost (a : AxisIx) (s t : State) (ht : Machine.execAxisLost a s = .next t) (hs : P s) :
    P t := by
  cases ht
  have h1 := h.touch .monitor (.axis a) s hs
  split
  · exact h.settle _ (h.becomeLost a _ h1)
  · exact hs

theorem StepClosed.execPrimeExpired (g : GroupIx) (s t : State) (ht : Machine.execPrimeExpired g s = .next t) (hs : P s) :
    P t := by
  cases ht
  split
  · exact h.changePermit g .disarmed 0 .primeExpired (by decide) (fun _ => rfl) s hs
  · exact hs

theorem StepClosed.execLapsed (g : GroupIx) (s t : State) (ht : Machine.execLapsed g s = .next t) (hs : P s) :
    P t := by
  cases ht
  split
  · exact h.settle _ (h.trip _ s hs)
  · exact hs

theorem StepClosed.execNoEcho (sg : SegIx) (s t : State) (ht : Machine.execNoEcho sg s = .next t) (hs : P s) :
    P t := by
  cases ht
  split
  · exact h.endCheck _ _ _ s hs
  · exact hs

theorem StepClosed.execCreepRunEnd (g : GroupIx) (s t : State) (ht : Machine.execCreepRunEnd g s = .next t) (hs : P s) :
    P t := by
  cases ht
  split
  · exact h.settle _ (h.finishCreep g s hs)
  · exact hs

theorem StepClosed.execSegmentDown (sg : SegIx) (s t : State) (ht : Machine.execSegmentDown sg s = .next t) (hs : P s) :
    P t := by
  cases ht
  split
  · exact h.settle _ (h.segmentLoss sg s hs)
  · exact hs

theorem StepClosed.execClDown (s t : State) (ht : Machine.execClDown s = .next t) (hs : P s) :
    P t := by
  cases ht
  split
  · exact h.clLoss s hs
  · exact hs

theorem StepClosed.execClFrameReceive (bytes : List Byte) (s t : State) (ht : Machine.execClFrameReceive bytes s = .next t) (hs : P s) :
    P t := by
  cases ht
  exact h.receiveCl bytes s hs

theorem StepClosed.execSegmentFrameReceive (sg : SegIx) (bytes : List Byte) (s t : State) (ht : Machine.execSegmentFrameReceive sg bytes s = .next t) (hs : P s) :
    P t := by
  cases ht
  exact h.receiveSeg sg bytes s hs

theorem StepClosed.execSetpointPosition (s t : State) (ht : Machine.execSetpointPosition s = .next t) (hs : P s) :
    P t := by
  cases ht
  exact h.takeSetpoint _ _ (fun a p => h.admitPosition a p) s hs

theorem StepClosed.execSetpointHold (s t : State) (ht : Machine.execSetpointHold s = .next t) (hs : P s) :
    P t := by
  cases ht
  exact h.takeSetpoint _ _ (fun a p => h.admitHold a p) s hs

theorem StepClosed.execSetpointBrake (s t : State) (ht : Machine.execSetpointBrake s = .next t) (hs : P s) :
    P t := by
  cases ht
  exact h.takeSetpoint _ _ (fun a p => h.admitBrake a p) s hs

theorem StepClosed.execSample (sg : SegIx) (s t : State) (ht : Machine.execSample sg s = .next t) (hs : P s) :
    P t := by
  cases ht
  split
  · next f rest he => exact h.sampleEvent sg f rest s he hs
  · exact hs

theorem StepClosed.execEcho (sg : SegIx) (s t : State) (ht : Machine.execEcho sg s = .next t) (hs : P s) :
    P t := by
  cases ht
  split
  · next f rest he => exact h.echoEvent sg f rest s he hs
  · exact hs

theorem StepClosed.execTripRequest (w : TripSender) (s t : State) (ht : Machine.execTripRequest w s = .next t) (hs : P s) :
    P t := by
  cases ht
  split
  · exact hs
  · split
    · next r rest _ => exact h.settle _ (h.trip r _ (h.takeRequest rest s hs))
    · exact hs

theorem StepClosed.execInputLevelChange (l : LineIx) (level : Level) (s t : State) (ht : Machine.execInputLevelChange l level s = .next t) (hs : P s) :
    P t := by
  cases ht
  exact h.changeLevel l level s hs

theorem StepClosed.execSegmentTransmissionEnd (sg : SegIx) (s t : State) (ht : Machine.execSegmentTransmissionEnd sg s = .next t) (hs : P s) :
    P t := by
  cases ht
  exact h.settle _ (h.endSegment sg s hs)

theorem StepClosed.execClTransmissionEnd (s t : State) (ht : Machine.execClTransmissionEnd s = .next t) (hs : P s) :
    P t := by
  cases ht
  split
  · exact h.endCl s hs
  · exact hs

theorem StepClosed.execSoftReset (s t : State) (ht : Machine.execSoftReset s = .next t) (hs : P s) : P t := by
  cases ht
  unfold State.takeable
  split
  · exact h.resetNext s hs
  · split
    · exact hs
    · next q hq =>
      split
      · have hlt : s.cl.replies.length < Config.replyCapacity := by
          by_contra hc
          rw [if_neg (by simp [hc])] at hq
          exact absurd hq (by simp)
        exact h.takeSoftReset q s hlt hs
      · exact hs

/-- Every command keeps what the primitive changes keep. -/
theorem StepClosed.exec (c : Instr) (s t : State) (ht : Machine.exec c s = .next t) (hs : P s) : P t := by
  cases c with
  | pinReset pins => exact h.execPinReset pins s t ht hs
  | cycleStart => exact h.execCycleStart s t ht hs
  | axisLost a => exact h.execAxisLost a s t ht hs
  | primeExpired g => exact h.execPrimeExpired g s t ht hs
  | lapsed g => exact h.execLapsed g s t ht hs
  | noEcho sg => exact h.execNoEcho sg s t ht hs
  | creepRunEnd g => exact h.execCreepRunEnd g s t ht hs
  | segmentDown sg => exact h.execSegmentDown sg s t ht hs
  | clDown => exact h.execClDown s t ht hs
  | clFrameReceive bytes => exact h.execClFrameReceive bytes s t ht hs
  | segmentFrameReceive sg bytes => exact h.execSegmentFrameReceive sg bytes s t ht hs
  | setpointPosition => exact h.execSetpointPosition s t ht hs
  | setpointHold => exact h.execSetpointHold s t ht hs
  | setpointBrake => exact h.execSetpointBrake s t ht hs
  | sample sg => exact h.execSample sg s t ht hs
  | echo sg => exact h.execEcho sg s t ht hs
  | tripRequest sender => exact h.execTripRequest sender s t ht hs
  | inputLevelChange line level => exact h.execInputLevelChange line level s t ht hs
  | segmentTransmissionEnd sg => exact h.execSegmentTransmissionEnd sg s t ht hs
  | clTransmissionEnd => exact h.execClTransmissionEnd s t ht hs
  | unknownRequest => exact h.execUnknownRequest s t ht hs
  | readEntryAxis => exact h.execReadEntryAxis s t ht hs
  | readEntryGroup => exact h.execReadEntryGroup s t ht hs
  | readEntryPair => exact h.execReadEntryPair s t ht hs
  | readEntryExtent => exact h.execReadEntryExtent s t ht hs
  | readEntryZone => exact h.execReadEntryZone s t ht hs
  | readEntryWaypoint => exact h.execReadEntryWaypoint s t ht hs
  | readEntryInput => exact h.execReadEntryInput s t ht hs
  | readEntrySettings => exact h.execReadEntrySettings s t ht hs
  | readEntrySchedule => exact h.execReadEntrySchedule s t ht hs
  | writeEntryAxis => exact h.execWriteEntryAxis s t ht hs
  | writeEntryGroup => exact h.execWriteEntryGroup s t ht hs
  | writeEntryPair => exact h.execWriteEntryPair s t ht hs
  | writeEntryExtent => exact h.execWriteEntryExtent s t ht hs
  | writeEntryZone => exact h.execWriteEntryZone s t ht hs
  | writeEntryWaypoint => exact h.execWriteEntryWaypoint s t ht hs
  | writeEntryInput => exact h.execWriteEntryInput s t ht hs
  | writeEntrySettings => exact h.execWriteEntrySettings s t ht hs
  | writeEntrySchedule => exact h.execWriteEntrySchedule s t ht hs
  | permitKeyKArm => exact h.execPermitKeyKArm s t ht hs
  | permitKeyKRun => exact h.execPermitKeyKRun s t ht hs
  | permitKeyOther => exact h.execPermitKeyOther s t ht hs
  | park => exact h.execPark s t ht hs
  | forceTrip => exact h.execForceTrip s t ht hs
  | clearTrip => exact h.execClearTrip s t ht hs
  | claimZone => exact h.execClaimZone s t ht hs
  | releaseZone => exact h.execReleaseZone s t ht hs
  | linkCheck => exact h.execLinkCheck s t ht hs
  | creepStart => exact h.execCreepStart s t ht hs
  | creepStop => exact h.execCreepStop s t ht hs
  | creepResult => exact h.execCreepResult s t ht hs
  | loadSchedule => exact h.execLoadSchedule s t ht hs
  | readTripRecord => exact h.execReadTripRecord s t ht hs
  | rewindTripRecords => exact h.execRewindTripRecords s t ht hs
  | readStatus => exact h.execReadStatus s t ht hs
  | clearCounters => exact h.execClearCounters s t ht hs
  | softReset => exact h.execSoftReset s t ht hs

/-- Every step keeps what the primitive changes keep. -/
theorem StepClosed.step (s t : State) (ht : Machine.step s = .next t) (hs : P s) : P t := by
  unfold Machine.step at ht
  split at ht
  · cases ht
    exact h.tick s hs
  · next c rest _ => exact h.exec c _ t ht (h.pending rest s hs)

end

end Sys2Proof.Machine
end

