-- ==== Sys2Proof/WellFormed.lean ====
section
/-! DEFINITION. Which commands the world can present.

Indices are bounded by their types. The one check left is on the frames: a frame arrives by its bytes
(R161), so an arrival of no byte at all is no arrival. -/

namespace Sys2Proof

/-- A command the links and lines can present. A request and a unit's own event carry no operand to check. -/
def Instr.wellFormed : Instr → Bool
  | .clFrameReceive bytes => !bytes.isEmpty
  | .segmentFrameReceive _ bytes => !bytes.isEmpty
  | .pinReset _ | .cycleStart | .axisLost _ | .primeExpired _ | .lapsed _ | .noEcho _ | .creepRunEnd _
  | .segmentDown _ | .clDown | .setpointPosition | .setpointHold | .setpointBrake | .sample _ | .echo _
  | .tripRequest _ | .inputLevelChange _ _ | .segmentTransmissionEnd _ | .clTransmissionEnd | .unknownRequest
  | .readEntryAxis | .readEntryGroup | .readEntryPair | .readEntryExtent | .readEntryZone | .readEntryWaypoint
  | .readEntryInput | .readEntrySettings | .readEntrySchedule | .writeEntryAxis | .writeEntryGroup
  | .writeEntryPair | .writeEntryExtent | .writeEntryZone | .writeEntryWaypoint | .writeEntryInput
  | .writeEntrySettings | .writeEntrySchedule | .permitKeyKArm | .permitKeyKRun | .permitKeyOther | .park
  | .forceTrip | .clearTrip | .claimZone | .releaseZone | .linkCheck | .creepStart | .creepStop | .creepResult
  | .loadSchedule | .readTripRecord | .rewindTripRecords | .readStatus | .clearCounters | .softReset => true

end Sys2Proof
end

