-- ==== Sys2Proof/Tests/Slice0.lean ====
section
/-! SUPPORT. Own tests: ill-formed commands are refused, each command runs on a small state, and for every statement
with hypotheses a state and operands that meet them, each clause at the edge of its range.

The transmitters of the test states are busy, so that no free choice is drawn and the kernel can evaluate them. -/

namespace Sys2Proof.Tests

open Sys2Proof Sys2Proof.Machine

/- One evaluation at a time, so that few threads are open at once. -/
set_option Elab.async false

/-! ## The test states -/

/-- The state after reset with every transmitter busy and no BEACON owed. -/
def quiet : State :=
  { State.reset with
    egress := { Egress.reset with beacon := Vector.replicate 4 false, tx := Vector.replicate 4 (some []) }
    cl := { ClSide.reset with tx := some [] } }

def pos (x : Int) : Word32 := BitVec.ofInt 32 x

/-- A5: segment 1, station 3, window -1000 to 1000, margin 10, max step 100, velocity limit 500, miss limit 3. -/
def axis5 : AxisFields := ⟨true, false, true, 1, 3, pos (-1000), pos 1000, 10, 100, 500, 3⟩

/-- G2: members A5 and A6, service interval 100, prime window 50, trip hold 4, propagation to G3, creep limit 20. -/
def group2 : GroupFields := ⟨true, false, [5, 6], 100, 50, 4, 8, 20⟩

/-- A latest sample at a position, of cycle 0. -/
def latestAt (x : Int) (brake rest : Bool) : LatestSample := ⟨pos x, 0, ⟨brake, rest, false⟩, 0, 0⟩

/-- A checked axis at rest at a position, brake set, with a sample in the previous cycle. -/
def restingAt (x : Int) : AxisRecord := ⟨true, some (latestAt x true true), false, 0, false, false, 0, 0, false⟩

/-- G2 with its two axes, at rest at 50 and 60. -/
def rig : State :=
  { quiet with
    tables := { TableStore.reset with
      axes := (TableStore.reset.axes.set 5 (.fresh axis5)).set 6 (.fresh { axis5 with station := 4, mirrored := true })
      groups := TableStore.reset.groups.set 2 (.fresh group2)
      index := (TableStore.reset.index.set 5 ⟨some 2, none⟩).set 6 ⟨some 2, none⟩ }
    axisRec := (quiet.axisRec.set 5 (restingAt 50)).set 6 (restingAt 60) }

/-- E7 of A5 in Z1, from 200 to 300. -/
def extent7 : ExtentFields := ⟨true, 5, 1, pos 200, pos 300⟩

/-- The rig with extent E7. -/
def zoned : State :=
  { rig with tables := { rig.tables with extents := rig.tables.extents.set 7 (.fresh extent7) } }

/-- P4: lead A5, follow A6, dual-cast as given, alarm limit 10, trip limit 20. -/
def pair4 (dual : Bool) : PairFields := ⟨true, dual, 5, 6, 10, 20⟩

/-- The rig with pair P4. -/
def paired (dual : Bool) : State :=
  { rig with tables := { rig.tables with
      pairs := rig.tables.pairs.set 4 (.fresh (pair4 dual))
      index := (rig.tables.index.set 5 ⟨some 2, some 4⟩).set 6 ⟨some 2, some 4⟩ } }

/-- G2 in a permit state with a lapse counter. -/
def withPermit (st : PermitState) (lapse : Word16) (s : State) : State :=
  (s.modPermit 2 fun p => { p with state := st, lapse := lapse }).setBrk 2 (st == .live)

/-- Every record's check bits are clean. -/
def allClean (s : State) : Bool :=
  s.tables.axes.all (·.check == .clean) && s.tables.groups.all (·.check == .clean)
    && s.tables.pairs.all (·.check == .clean) && s.tables.extents.all (·.check == .clean)

theorem outcome_clean {F : Type} (r : Stored F) (h : r.check = .clean) : r.outcome = .clean ∨ r.outcome = .already := by
  unfold Stored.outcome
  cases r.poisoned <;> simp [h]

theorem sound_of (s : State) (h : allClean s = true) : s.Sound := by
  simp only [allClean, Bool.and_eq_true, Vector.all_eq_true, beq_iff_eq] at h
  obtain ⟨⟨⟨h1, h2⟩, h3⟩, h4⟩ := h
  intro e
  cases e with
  | axis a => exact outcome_clean _ (h1 a a.isLt)
  | group g => exact outcome_clean _ (h2 g g.isLt)
  | pair p => exact outcome_clean _ (h3 p p.isLt)
  | extent x => exact outcome_clean _ (h4 x x.isLt)

/-- A state that holds the tables of one whose records show no error shows none. -/
theorem sound_like {s t : State} (h : allClean t = true) (ht : s.tables = t.tables) : s.Sound :=
  fun e => by rw [ht]; exact sound_of t h e

/-- The request of a code and parameters, with tag 7. -/
def req (code : Byte) (params : List Byte) : Request := ⟨7, some code, params⟩

/-- The state with one request waiting. -/
def ask (code : Byte) (params : List Byte) (s : State) : State := { s with requests := [req code params] }

theorem presents_ask {s : State} {code : Byte} {params : List Byte} {d : Demand} (hr : s.resets = [])
    (h : s.cl.replies.length < 8) (hd : (req code params).demand = d) :
    (ask code params s).Presents (req code params) d := ⟨hr, h, rfl, hd⟩

/-- The state that a command leaves. -/
def after (c : Instr) (s : State) : Option State :=
  match exec c s with
  | .next t => some t
  | .fault _ => none
  | .refused _ => none

/-- A field of the state that a command leaves. -/
def view {α : Type} (f : State → α) (c : Instr) (s : State) : Option α := (after c s).map f

/-- The reports that wait, oldest first. -/
def posted (s : State) : List ReportBody := s.cl.reports.map (·.body)

/-- The reply to a request: its status and parts. -/
def reply (c : Instr) (code : Byte) (params : List Byte) (s : State) : Option (Status × List (List Byte)) :=
  (after c (ask code params s)).bind fun t => t.cl.replies.getLast?.map fun r => (r.status, r.parts)

/-! ## Well-formed commands -/

theorem test_ill_formed_cl_frame : (Instr.clFrameReceive []).wellFormed = false := by decide
theorem test_ill_formed_segment_frame : (Instr.segmentFrameReceive 3 []).wellFormed = false := by decide
theorem test_well_formed :
    (Instr.clFrameReceive [0x7E#8]).wellFormed = true ∧ (Instr.segmentFrameReceive 3 [0#8]).wellFormed = true ∧
      Instr.park.wellFormed = true := by decide

theorem test_no_word : decodeTableWord 8 3 = none ∧ (State.reset.withFetchWord 8 3).pending = [] := by decide +kernel


/-! ## Time, the counts and the permits at a cycle start -/

theorem witness_StepRunsFrontCommand :
    ({ quiet with pending := [.park, .clDown] } : State).pending = .park :: [.clDown] := rfl

/-- The quiet state with a phase. -/
def atPhase (p : Word16) : State := { quiet with timer := { quiet.timer with phase := p } }

theorem witness_IdleStepAdvancesClock :
    ((atPhase 1998).pending = [] ∧ (atPhase 1998).timer.phase.toNat + 1 < (atPhase 1998).timer.period.toNat) ∧
      (atPhase 1999).timer.phase.toNat + 1 = (atPhase 1999).timer.period.toNat ∧
      (atPhase 1998).tick.timer = ⟨1, 0, 2000#16, 1999#16⟩ := by decide +kernel

/-- Blocks that have yet to take a soft reset. -/
def resetting (l : List ResetBlock) (s : State) : State := { s with resets := l }

theorem witness_IdleStepAdvancesClock_resets :
    (resetting [.timer] (atPhase 1999)).finishResets.resets = [] ∧
      (resetting [.timer] (atPhase 1999)).tick.timer = ⟨1, 0, 2000#16, 1#16⟩ := by decide +kernel

theorem witness_IdleStepsReachCycleStart :
    (atPhase 1999).pending = [] ∧ (atPhase 1999).egress.idleWaiting = [] ∧
      (atPhase 1999).timer.phase.toNat < (atPhase 1999).timer.period.toNat := by decide +kernel

/-- The orders of a cycle start as the tables list them. -/
def plain : CycleOrders := ⟨[], [], [], [], []⟩

theorem test_cycle_start_counts_misses :
    (rig.cycleEventIn plain).timer = ⟨0, 1, 2000#16, 0⟩ ∧ (rig.cycleEventIn plain).axisRec[(5 : AxisIx)].missCount = 1 ∧
      (rig.cycleEventIn plain).tables.scrubPos = 1 := by decide +kernel

/-- The rig with A5's record changed. -/
def axis5With (f : AxisRecord → AxisRecord) (s : State) : State := s.modAxis 5 f

theorem witness_MissAccountingClosesCycle :
    allClean rig = true ∧ rig.tables.axes[(0 : AxisIx)].held.valid = false ∧
      rig.tables.axes[(5 : AxisIx)].held.valid = true ∧
      (axis5With (fun r => { r with arrived := true }) rig).axisRec[(5 : AxisIx)].arrived = true ∧
      (rig.closeAxis 5).axisRec[(5 : AxisIx)].lost = false ∧
      ((axis5With (fun r => { r with missCount := 2 }) rig).closeAxis 5).axisRec[(5 : AxisIx)].lost = true ∧
      ((axis5With (fun r => { r with missCount := 2 }) (withPermit .live 9 rig)).closeAxis 5).permitState 2 = .tripped := by
  decide +kernel

theorem witness_MissAccountingClosesCycle_reports :
    posted ((axis5With (fun r => { r with arrived := true, lost := true }) rig).closeAxis 5) = [.axisRecovered 5 65535] ∧
      posted ((axis5With (fun r => { r with arrived := true }) rig).closeAxis 5) = [] ∧
      posted ((axis5With (fun r => { r with missCount := 1 }) rig).closeAxis 5) = [] ∧
      posted ((axis5With (fun r => { r with missCount := 2 }) rig).closeAxis 5) = [.axisLost 5 (some 2) (some 0)] := by
  decide +kernel

/-- SG1 up, its silence count at a value. -/
def silentSegment (silence : Byte) : State := rig.modSegPort 1 fun q => { q with port := ⟨.up, silence, false, 0, 5⟩ }

theorem witness_MissAccountingClosesCycle_ports :
    ((silentSegment 3).portCycle (.seg 1)).segPorts[(1 : SegIx)].port = ⟨.up, 4, false, 0, 5⟩ ∧
      ((silentSegment 4).portCycle (.seg 1)).segPorts[(1 : SegIx)].port = ⟨.down, 5, false, 0, 5⟩ ∧
      ((silentSegment 4).portCycle (.seg 1)).axisRec[(5 : AxisIx)].checked = false ∧
      (({ silentSegment 4 with settings := { Settings.default with segSilence := 6 } } : State).portCycle
        (.seg 1)).segPorts[(1 : SegIx)].port = ⟨.up, 5, false, 0, 6⟩ := by decide +kernel

theorem witness_LapseCountersRunDown :
    rig.permitState 2 = .disarmed ∧ (withPermit .tripped 0 rig).permitState 2 = .tripped ∧
      ((withPermit .primed 1 rig).permitCycle 2).permitState 2 = .disarmed ∧
      ((withPermit .primed 2 rig).permitCycle 2).permits[(2 : GroupIx)].lapse = 1 ∧
      ((withPermit .live 2 rig).permitCycle 2).permitState 2 = .live ∧
      ((withPermit .live 1 rig).permitCycle 2).permits[(2 : GroupIx)].cause = some ⟨.lapsed, .none⟩ := by decide +kernel

/-- A miss count that stands at the miss limit. -/
def missed : State := axis5With (fun r => { r with missCount := 3 }) (withPermit .primed 9 rig)

/-- A sent link check of A5 with a timeout count. -/
def checking (timeout : BitVec 3) : State :=
  rig.modCheck 1 fun _ => ⟨true, 5, .word, 0x4E71#16, true, timeout, 0⟩

/-- A creep run of G2. -/
def creeping (duration elapsed : Word16) : State := rig.modCreep 2 fun _ => ⟨.running, duration, elapsed, 20, .unknown⟩

/-- CL up, its silence count at a value. -/
def silentCl (silence : Byte) : State := rig.modClPort fun q => { q with port := ⟨.up, silence, false, 0, 25⟩ }

theorem witness_ReachedCountsTakeEffect_axisLost :
    missed.axisRec[(5 : AxisIx)].missCount ≠ 0 ∧ missed.groupOf 5 = some 2 ∧
      view (fun t => (t.axisRec[(5 : AxisIx)].lost, t.permitState 2)) (.axisLost 5) missed =
        some (true, .tripped) := by decide +kernel

theorem witness_ReachedCountsTakeEffect_lapse :
    view (·.permitState 2) (.primeExpired 2) (withPermit .primed 0 rig) = some .disarmed ∧
      view (·.permitState 2) (.lapsed 2) (withPermit .live 0 rig) = some .tripped := by decide +kernel

theorem witness_ReachedCountsTakeEffect_checks :
    view (·.checks[(1 : SegIx)].inFlight) (.noEcho 1) (checking 4) = some false ∧
      view (·.checks[(1 : SegIx)].inFlight) (.noEcho 1) (checking 3) = some true ∧ allClean (creeping 5 5) = true ∧
      view (fun t => t.creep[(2 : GroupIx)].verdict) (.creepRunEnd 2) (creeping 5 5) = some .pass := by decide +kernel

theorem witness_ReachedCountsTakeEffect_links :
    view (fun t => (t.segPorts[(1 : SegIx)].port.link, t.axisRec[(5 : AxisIx)].checked)) (.segmentDown 1)
        (silentSegment 5) = some (.down, false) ∧
      view (fun t => (t.clPort.port.link, t.inFlight.length)) .clDown (silentCl 25) = some (.down, 8) ∧
      view (·.clPort.port.link) .clDown (silentCl 24) = some .up := by decide +kernel

theorem witness_LapseCountersRunDown_others :
    ((withPermit .tripped 0 rig).refillGroup 2).egress.stopSet[(1 : SegIx)] = [5, 6] ∧
      ((checking 3).checkTimeout 1).checks[(1 : SegIx)].inFlight = false ∧
      ((checking 2).checkTimeout 1).checks[(1 : SegIx)].inFlight = true ∧
      ((creeping 5 4).creepCycle 2).creep[(2 : GroupIx)] = ⟨.done, 5, 5, 20, .pass⟩ ∧
      ((creeping 0 4).creepCycle 2).creep[(2 : GroupIx)] = ⟨.running, 0, 5, 20, .unknown⟩ ∧
      (rig.modTables fun t => { t with scrubPos := 231 }).scrub.tables.scrubPos = 0 := by decide +kernel

theorem witness_LapseCountersRunDown_reports :
    posted ((withPermit .primed 1 rig).permitCycle 2) = [.permitChange 2 .primed .disarmed .primeExpired 0] ∧
      posted ((checking 3).checkTimeout 1) = [.linkCheckDone 5 .noEcho 1 .word 0x4E71#16 none 0] ∧
      posted ((checking 2).checkTimeout 1) = [] ∧
      posted ((creeping 5 4).creepCycle 2) = [.creepDone 2 ⟨.done, 5, 5, 20, .pass⟩ 20 none] ∧
      posted ((creeping 5 3).creepCycle 2) = [] := by decide +kernel

theorem witness_ReachedCountsTakeEffect_reports :
    (view posted (.axisLost 5) missed).map (·.head?) = some (some (.axisLost 5 (some 2) (some 0))) ∧
      view posted (.segmentDown 1) (silentSegment 5) = some [.portChange (.seg 1) .down 5] ∧
      view posted (.segmentDown 1)
          ((silentSegment 5).modCheck 1 fun _ => ⟨true, 5, .word, 0x4E71#16, false, 0, 0⟩) =
        some [.portChange (.seg 1) .down 5, .linkCheckDone 5 .segmentDown 1 .word 0x4E71#16 none 0] ∧
      view posted .clDown (silentCl 25) = some [.portChange .cl .down 25] := by decide +kernel

/-! ## Links, frames and transmitters -/

theorem witness_CheckWordMatchesExample :
    checkWordOf [0x31#8, 0x32#8, 0x33#8, 0x34#8, 0x35#8, 0x36#8, 0x37#8, 0x38#8, 0x39#8] = 0x29B1#16 ∧
      parseFrame (buildFrame 3 0xFF#8 9 (List.replicate 56 0xA5#8)) = some ⟨3, 0xFF#8, 9, List.replicate 56 0xA5#8⟩ ∧
      parseFrame (buildFrame 3 0xFF#8 9 (List.replicate 57 0xA5#8)) = none := by decide +kernel

theorem witness_CheckWordMatchesExample_accepted :
    ([(1, 63, []), (1, 255, []), (2, 255, []), (3, 255, []), (1, 64, []), (2, 255, [0]), (2, 0, []), (3, 254, []),
        (4, 255, [])] : List (Byte × Byte × List Byte)).map
        (fun f => (clFrameOf (buildFrame f.1 f.2.1 0 f.2.2)).isSome) =
      [true, true, true, true, false, false, false, false, false] ∧
    ([(6, 1, List.replicate 9 0), (6, 32, List.replicate 9 0), (10, 32, [0, 0, 1]), (6, 33, List.replicate 9 0),
        (6, 0, List.replicate 9 0), (6, 1, List.replicate 8 0), (10, 1, [0, 0, 2]), (7, 1, [0, 0, 0])] :
        List (Byte × Byte × List Byte)).map (fun f => (segFrameOf (buildFrame f.1 f.2.1 0 f.2.2)).isSome) =
      [true, true, true, false, false, false, false, false] := by decide +kernel

/-- A SETPOINT payload: mode, target and cap. -/
def setpointBytes (m : Byte) (target : Word32) (cap : Word16) : List Byte := m :: bytes32 target ++ bytes16 cap

/-- The path to admission with n frames, and n requests in the queue. -/
def filled (n : Nat) : State :=
  { rig with
    paths := { rig.paths with setpoint := List.replicate n ⟨5, []⟩ }
    requests := List.replicate n (req 14 []) }

theorem witness_ClFramesAreSorted_refused :
    clFrameOf [] = none ∧ view (·.clPort.port.bad) (.clFrameReceive []) rig = some 1 ∧
      view (·.clPort.port.bad) (.clFrameReceive (buildFrame kindAlive 0xFF#8 0 [1])) rig = some 1 := by decide +kernel

theorem witness_ClFramesAreSorted_accepted :
    view (·.clPort.port.link) (.clFrameReceive (buildFrame kindAlive 0xFF#8 0 [])) rig = some .up ∧
      view (·.paths.setpoint.length) (.clFrameReceive (buildFrame kindSetpoint 63 0 [])) (filled 7) = some 8 ∧
      view (fun t => (t.paths.setpoint.length, t.clPort.port.bad)) (.clFrameReceive (buildFrame kindSetpoint 63 0 []))
        (filled 8) = some (8, 1) ∧
      view (·.requests.getLast?) (.clFrameReceive (buildFrame kindRequest 0xFF#8 4 [3, 2])) (filled 7) =
        some (some ⟨4, some 3, [2]⟩) ∧
      view (fun t => (t.requests.length, t.clPort.dropped)) (.clFrameReceive (buildFrame kindRequest 0xFF#8 4 []))
        (filled 8) = some (8, 1) := by decide +kernel

theorem witness_ClFramesAreSorted_reports :
    rig.clPort.port.link = .down ∧ (silentCl 3).clPort.port.link = .up ∧
      view posted (.clFrameReceive (buildFrame kindAlive 0xFF#8 0 [])) rig = some [.portChange .cl .up 0] ∧
      view posted (.clFrameReceive (buildFrame kindAlive 0xFF#8 0 [])) (silentCl 3) = some [] := by decide +kernel

/-- A SAMPLE payload: cycle, position, velocity, flags. -/
def sampleBytes (cycle : Word16) (x : Int) (v : Word16) (flags : Byte) : List Byte :=
  bytes16 cycle ++ bytes32 (pos x) ++ bytes16 v ++ [flags]

def sampleFrame (cycle : Word16) (x : Int) : SampleFrame := ⟨5, cycle, pos x, 0, ⟨false, false, false⟩, false⟩

def echoFrame (word : Word16) (m : Mounting) : EchoFrame := ⟨5, word, m, false⟩

/-- Frames in the paths of segment 1. -/
def segmentPaths (l : List SampleFrame) (k : List EchoFrame) (s : State) : State :=
  { s with paths := { s.paths with sample := s.paths.sample.set 1 l, echo := s.paths.echo.set 1 k } }

theorem witness_SegmentFramesAreMapped_refused :
    segFrameOf (buildFrame kindSample 33 0 (sampleBytes 0 7 1 0)) = none ∧
      rig.stationMap 1 32 = none ∧ rig.stationMap 1 3 = some 5 ∧
      view (·.segPorts[(1 : SegIx)].unmapped) (.segmentFrameReceive 1 (buildFrame kindSample 32 0 (sampleBytes 0 7 1 0)))
        rig = some 1 := by decide +kernel

theorem witness_SegmentFramesAreMapped_accepted :
    view (·.paths.sample[(1 : SegIx)].length) (.segmentFrameReceive 1 (buildFrame kindSample 3 0 (sampleBytes 0 7 1 0)))
        (segmentPaths (List.replicate 7 (sampleFrame 0 1)) [] rig) = some 8 ∧
      view (·.segPorts[(1 : SegIx)].port.bad)
        (.segmentFrameReceive 1 (buildFrame kindSample 3 0 (sampleBytes 0 7 1 0)))
        (segmentPaths (List.replicate 8 (sampleFrame 0 1)) [] rig) = some 1 ∧
      view (·.paths.echo[(1 : SegIx)]) (.segmentFrameReceive 1 (buildFrame kindEcho 3 0 [0x4E#8, 0x71#8, 1]))
        rig = some [echoFrame 0x4E71#16 .reversed] := by decide +kernel

theorem witness_SegmentFramesAreMapped_reports :
    rig.segPorts[(1 : SegIx)].port.link = .down ∧ (silentSegment 3).segPorts[(1 : SegIx)].port.link = .up ∧
      view posted (.segmentFrameReceive 1 (buildFrame kindSample 32 0 (sampleBytes 0 7 1 0))) rig =
        some [.portChange (.seg 1) .up 0] ∧
      view posted (.segmentFrameReceive 1 (buildFrame kindSample 3 0 (sampleBytes 0 7 1 0))) (silentSegment 3) = some []
      := by decide +kernel

/-- The rig with sources of segment 1 filled. -/
def sources (stops : List AxisIx) (beacon : Bool) (q : List SetpointEntry) (c : Option CheckFrame) : State :=
  { rig with egress := { rig.egress with
      stopSet := rig.egress.stopSet.set 1 stops, beacon := rig.egress.beacon.set 1 beacon
      setpoints := rig.egress.setpoints.set 1 q, checkSlot := rig.egress.checkSlot.set 1 c } }

def entry5 : SetpointEntry := ⟨5, .position, pos 150, 500, pos 50⟩
def check5 : CheckFrame := ⟨5, 0x4E71#16⟩

theorem witness_EgressServesStopsFirst :
    allClean (sources [5] true [entry5] (some check5)) = true ∧
      (∀ k : SegIx, k ≠ 1 → (sources [5] true [entry5] (some check5)).egress.tx[k].isSome = true) ∧
      view (·.egress.tx[(1 : SegIx)]) (.segmentTransmissionEnd 1) (sources [5] true [entry5] (some check5)) =
        some (some (stopFrame 3)) ∧
      view (·.egress.tx[(1 : SegIx)]) (.segmentTransmissionEnd 1) (sources [] true [entry5] (some check5)) =
        some (some (beaconFrame 0 2000#16)) ∧
      view (·.egress.tx[(1 : SegIx)]) (.segmentTransmissionEnd 1) (sources [] false [entry5] (some check5)) =
        some (some (setpointFrame 3 .position (pos 150) 500)) ∧
      view (fun t => (t.egress.tx[(1 : SegIx)], t.checks[(1 : SegIx)].sent)) (.segmentTransmissionEnd 1)
        (sources [] false [] (some check5)) = some (some (checkFrame 3 0x4E71#16), true) ∧
      view (·.egress.tx[(1 : SegIx)]) (.segmentTransmissionEnd 1) (sources [] false [] none) = some none := by
  decide +kernel

def lineReport (l : LineIx) : Report := ⟨.inputChange l .high false 0, 0, 0, 0⟩
def tripReport : Report := ⟨.trip 2 ⟨.forced, .none⟩ none .live 0 1 0, 0, 0, 0⟩
def plainReply : Reply := ⟨7, 14, .ok, 0, [[0]]⟩

/-- A transmission under way on CL, with sources filled and the pointer at a phase. -/
def clSources (k : Fin 32) (replies : List Reply) (reports : List Report) (fwd : List ForwardEntry) : State :=
  { rig with cl := { rig.cl with
      replies := replies, reports := reports, forward := rig.cl.forward.set 3 fwd
      schedule := { rig.cl.schedule with pointer := k } } }

def forward5 : ForwardEntry := ⟨5, 0, pos 50, 0, ⟨false, true, false⟩⟩

theorem witness_ScheduleTakesFirstWaitingPhase :
    missingSource rig.cl.schedule.live = none ∧ rig.cl.tx.isSome = true ∧ rig.cl.schedule.loadPending = false ∧
      view (·.cl.tx) .clTransmissionEnd rig = some none ∧
      view (fun t => (t.cl.schedule.pointer, t.cl.replies)) .clTransmissionEnd
        (clSources 25 [plainReply] [lineReport 0] []) = some (29, [plainReply]) ∧
      view (fun t => (t.cl.schedule.pointer, t.cl.replies)) .clTransmissionEnd
        (clSources 29 [plainReply] [] [forward5]) = some (0, [plainReply]) ∧
      view (fun t => (t.cl.schedule.pointer, t.cl.tx)) .clTransmissionEnd (clSources 31 [plainReply] [] []) =
        some (1, some plainReply.frames) := by decide +kernel

/-- The shadow table names the segments in the first phases, and its load is pending. -/
def loadingAt (mask : Word16) (k : Fin 32) (replies : List Reply) : State :=
  { clSources k replies [] [] with
    settings := { Settings.default with reportMask := mask }
    cl := { (clSources k replies [] []).cl.setPending with schedule := { (clSources k replies [] []).cl.schedule with
      shadow := Schedule.defaultTable.set 0 .report, loadPending := true } } }

/-- The pointer, whether CL is transmitting, and the pending flag, after the end of a CL transmission. -/
def clEnd (s : State) : Option (Fin 32 × Bool × Bool) :=
  view (fun t => (t.cl.schedule.pointer, t.cl.tx.isSome, t.cl.schedule.loadPending)) .clTransmissionEnd s

theorem witness_ScheduleTakesFirstWaitingPhase_load :
    missingSource (loadingAt 0 0 []).cl.schedule.shadow = none ∧ (loadingAt 0 0 []).cl.anyWaiting = false ∧
      clEnd (loadingAt 0 9 []) = some (0, false, false) ∧ clEnd (loadingAt 0x7FFF#16 9 []) = some (1, true, false) ∧
      clEnd (loadingAt 0 9 [plainReply]) = some (17, true, true) ∧
      clEnd (loadingAt 0 25 [plainReply]) = some (9, true, false) ∧
      clEnd (loadingAt 0 0 [plainReply]) = some (9, true, false) := by decide +kernel

def reportsOf (l : List Report) : ClSide := { quiet.cl with reports := l }

theorem witness_FullReportQueueKeepsTrips :
    reportEnabled 0 .inputChange = false ∧ reportEnabled 0x7FFF#16 .inputChange = true ∧
      ((reportsOf (List.replicate 31 (lineReport 0))).queueReport rig.postContext (.inputChange 1 .low false 0)).reports
        = List.replicate 31 (lineReport 0) ++ [⟨.inputChange 1 .low false 0, 0, 0, 0⟩] ∧
      ((reportsOf (List.replicate 32 tripReport)).queueReport rig.postContext tripReport.body).overrunTotal = 1 ∧
      ((reportsOf (lineReport 0 :: List.replicate 31 tripReport)).queueReport rig.postContext tripReport.body).reports.countP
        Report.isTrip = 32 ∧
      ((reportsOf (List.replicate 32 (lineReport 0))).queueReport rig.postContext (.inputChange 1 .low false 0)).overrunTotal
        = 1 := by decide +kernel

theorem witness_FullReportQueueKeepsTrips_newest :
    (lineReport 1).isTrip = false ∧ (∀ x ∈ [tripReport], x.isTrip = true) ∧
      dropNewestOther ([lineReport 0] ++ lineReport 1 :: [tripReport]) = [lineReport 0, tripReport] := by decide +kernel

/-! ## Requests -/

theorem witness_EachRequestGetsOneReply :
    (ask 3 [2] rig).Presents (req 3 [2]) (.park 2) ∧ Demand.park 2 ≠ .unknown ∧ Demand.park 2 ≠ .softReset :=
  ⟨presents_ask rfl (by decide) (by decide), by decide, by decide⟩

/-- Eight replies wait. -/
def fullReplies : State := { rig with cl := { rig.cl with replies := List.replicate 8 plainReply } }

theorem witness_OtherRowsLeaveRequestWaiting :
    (takesRequest .clearTrip ∧ (ask 3 [2] rig).Presents (req 3 [2]) (req 3 [2]).demand ∧
      (req 3 [2]).demand.command ≠ .clearTrip) ∧
      8 ≤ (ask 3 [2] fullReplies).cl.replies.length ∧ rig.requests = [] ∧
      view (·.requests) .clearTrip (ask 3 [2] rig) = some [req 3 [2]] ∧
      view (·.requests) .park (ask 3 [2] fullReplies) = some [req 3 [2]] :=
  ⟨⟨⟨.clearTrip 0, rfl⟩, presents_ask rfl (by decide) rfl, by decide⟩, by decide +kernel⟩

theorem witness_OtherRowsLeaveRequestWaiting_resets :
    (resetting [.timer] (ask 3 [2] rig)).resets ≠ [] ∧ Instr.park ≠ .softReset ∧
      view (·.requests) .park (resetting [.timer] (ask 3 [2] rig)) = some [req 3 [2]] := by decide +kernel

/-- The lowest index above the range of each request. -/
def unfit : List (Instr × Byte × List Byte) :=
  [(.readEntryAxis, 0, [0, 64]), (.readEntryGroup, 0, [1, 8]), (.readEntryPair, 0, [2, 32]),
    (.readEntryExtent, 0, [3, 128]), (.readEntryZone, 0, [4, 16]), (.readEntryWaypoint, 0, [5, 64]),
    (.readEntryInput, 0, [6, 8]), (.readEntrySettings, 0, [7, 1]), (.readEntrySchedule, 0, [8, 32])]
  ++ [(.writeEntryInput, 1, [6, 8, 1, 0]), (.writeEntrySchedule, 1, [8, 32, 0]), (.permitKeyKArm, 2, [8, 0x71#8, 0xE4#8]),
    (.permitKeyKRun, 2, [8, 0x2B#8, 0x9D#8]), (.permitKeyOther, 2, [8, 0, 0]), (.park, 3, [8]), (.forceTrip, 4, [8]),
    (.clearTrip, 5, [8]), (.claimZone, 6, [16, 0]), (.claimZone, 6, [0, 8]), (.releaseZone, 7, [16, 0]),
    (.linkCheck, 8, [64]), (.creepStart, 9, [8, 0, 5]), (.creepStop, 10, [8]), (.creepResult, 11, [8]),
    (.readStatus, 15, [5])]

theorem witness_UnfitRequestsAreRefused :
    unfit.all (fun x => (req x.2.1 x.2.2).demand.badIndex && (reply x.1 x.2.1 x.2.2 rig == some (.badIndex, [[]])))
        = true ∧
      reply .writeEntryZone 1 [4] rig = some (.badRequest, [[]]) ∧
      reply .unknownRequest 18 [] rig = some (.badRequest, [[]]) ∧
      ({ rig with requests := [⟨7, none, []⟩] } : State).Presents ⟨7, none, []⟩ .unknown :=
  ⟨by decide +kernel, by decide +kernel, by decide +kernel, ⟨rfl, by decide, rfl, rfl⟩⟩

/-- The written part of A5 on the wire. -/
def axisBytes : List Byte :=
  [5, 1, 3, 0xFF#8, 0xFF#8, 0xFC#8, 0x18#8, 0, 0, 3, 0xE8#8, 0, 10, 0, 100, 1, 0xF4#8, 3]

theorem witness_ReadsReturnContents_tables :
    (reply .readEntryAxis 0 [0, 5] rig).map (fun r => (r.1, r.2.map (·.take 18))) = some (.ok, [axisBytes]) ∧
      (reply .readEntryGroup 0 [1, 7] rig).map (·.1) = some .ok ∧
      (reply .readEntryPair 0 [2, 31] rig).map (·.1) = some .ok ∧
      (reply .readEntryExtent 0 [3, 7] zoned) =
        some (.ok, [[1, 5, 1, 0, 0, 0, 200, 0, 0, 1, 44, 0]]) := by decide +kernel

/-- Z1 owned by G2, and A5 inside E7. -/
def occupied : State :=
  axis5With (fun r => { r with latest := some (latestAt 300 false true) }) { zoned with zones := zoned.zones.set 1 (some 2) }

theorem witness_ReadsReturnContents_others :
    reply .readEntryZone 0 [4, 15] rig = some (.ok, [[255, 0, 255, 0, 0, 0, 0, 255]]) ∧
      reply .readEntryZone 0 [4, 1] occupied = some (.ok, [[2, 1, 5, 0, 0, 1, 44, 7]]) ∧
      reply .readEntryWaypoint 0 [5, 63] rig = some (.ok, [List.replicate 16 0]) ∧
      reply .readEntryInput 0 [6, 7] rig = some (.ok, [[1, 0, 0, 0]]) ∧
      reply .readEntrySettings 0 [7, 0] rig = some (.ok, [[7, 208, 25, 5, 1, 0x4E#8, 0x71#8, 0x7F#8, 0xFF#8]]) ∧
      reply .readEntrySchedule 0 [8, 31] rig = some (.ok, [[5, 5, 0, 0]]) := by decide +kernel

/-! ## Writing the tables -/

/-- A write of these contents to an axis. -/
def writes (a : Byte) (f : AxisFields) (s : State) : Option (Status × List (List Byte)) :=
  reply .writeEntryAxis 1 (0 :: a :: f.bytes) s

theorem witness_AxisWriteIsChecked :
    [writes 5 axis5 (withPermit .primed 1 rig),
      writes 5 axis5 (creeping 0 0),
      writes 5 { axis5 with valid := false } rig,
      writes 5 { axis5 with missLimit := 8 } rig,
      writes 5 { axis5 with station := 4 } rig,
      writes 63 { axis5 with station := 32, missLimit := 7 } rig,
      writes 63 AxisFields.default rig] =
    [some (.locked, [[]]), some (.busy, [[]]), some (.referenced, [[]]), some (.badValue, [[]]),
      some (.conflict, [[]]), some (.ok, [[]]), some (.ok, [[]])] := by decide +kernel

def writesGroup (g : Byte) (f : GroupFields) (s : State) : Option (Status × List (List Byte)) :=
  reply .writeEntryGroup 1 (1 :: g :: f.bytes) s

theorem witness_GroupWriteIsChecked :
    [writesGroup 2 group2 (withPermit .tripped 0 rig),
      writesGroup 2 group2 (creeping 0 0),
      writesGroup 2 GroupFields.default (paired false),
      writesGroup 2 { group2 with serviceInterval := 1 } rig,
      writesGroup 2 { group2 with members := [7] } rig,
      writesGroup 7 { group2 with members := [5] } rig,
      writesGroup 2 { group2 with members := [5] } (paired false),
      writesGroup 2 { group2 with members := [6], serviceInterval := 2 } rig,
      writesGroup 7 GroupFields.default rig] =
    [some (.locked, [[]]), some (.busy, [[]]), some (.referenced, [[]]), some (.badValue, [[]]),
      some (.badValue, [[]]), some (.conflict, [[]]), some (.referenced, [[]]), some (.ok, [[]]),
      some (.ok, [[]])] := by decide +kernel

def writesPair (p : Byte) (f : PairFields) (s : State) : Option (Status × List (List Byte)) :=
  reply .writeEntryPair 1 (2 :: p :: f.bytes) s

theorem witness_PairWriteIsChecked :
    [writesPair 4 PairFields.default (withPermit .live 9 (paired false)),
      writesPair 31 (pair4 false) (withPermit .live 9 rig),
      writesPair 31 PairFields.default rig,
      writesPair 31 { pair4 false with tripLimit := 10 } rig,
      writesPair 31 { pair4 false with follow := 64 } rig,
      writesPair 31 (pair4 false) (paired false),
      writesPair 31 { pair4 true with tripLimit := 11 } rig] =
    [some (.locked, [[]]), some (.locked, [[]]), some (.ok, [[]]), some (.badValue, [[]]),
      some (.badValue, [[]]), some (.conflict, [[]]), some (.ok, [[]])] := by decide +kernel

def writesExtent (x : Byte) (f : ExtentFields) (s : State) : Option (Status × List (List Byte)) :=
  reply .writeEntryExtent 1 (3 :: x :: f.bytes) s

theorem witness_ExtentWriteIsChecked :
    [writesExtent 7 { extent7 with axis := 63 } (withPermit .primed 1 zoned),
      writesExtent 127 extent7 (withPermit .primed 1 rig),
      writesExtent 127 { extent7 with zone := 16 } rig,
      writesExtent 127 { extent7 with low := pos 301 } rig,
      writesExtent 127 { extent7 with low := pos 300, zone := 15, axis := 63 } rig,
      writesExtent 7 ExtentFields.default zoned] =
    [some (.locked, [[]]), some (.locked, [[]]), some (.badValue, [[]]), some (.badValue, [[]]),
      some (.ok, [[]]), some (.ok, [[]])] := by decide +kernel

/-- A way-point at 100, RISING, with an action. -/
def waypointAt (action : WaypointAction) : Waypoint := ⟨pos 100, .rising, action⟩

/-- The rig with a live way-point on A5. -/
def marked (w : Waypoint) (s : State) : State := { s with waypoints := s.waypoints.set 5 ⟨some w, none⟩ }

def waypointsAfter (params : List Byte) (s : State) : Option WaypointSlots :=
  view (·.waypoints[(5 : AxisIx)]) .writeEntryWaypoint (ask 1 (5 :: 5 :: params) s)

theorem witness_WaypointAndInputWrites :
    reply .writeEntryWaypoint 1 [5, 63, 1, 0, 0, 0, 100, 3, 0, 0] rig = some (.badValue, [[]]) ∧
      waypointsAfter [1, 0, 0, 0, 100, 0, 1, 15] rig = some ⟨some (waypointAt (.releaseZone 15)), none⟩ ∧
      waypointsAfter [1, 0, 0, 0, 100, 0, 0, 0] (marked (waypointAt .none) rig) =
        some ⟨some (waypointAt .none), some (waypointAt .none)⟩ ∧
      waypointsAfter [0, 0, 0, 0, 0, 0, 0, 0] (marked (waypointAt .none) rig) = some ⟨some (waypointAt .none), none⟩ ∧
      reply .writeEntryInput 1 [6, 7, 2, 0] rig = some (.badValue, [[]]) ∧
      view (·.inFlight) .writeEntryInput (ask 1 [6, 7, 0, 0x84#8] rig) =
        some [(.tripUnit, ⟨2, ⟨.input, .line 7⟩, none⟩), (.tripUnit, ⟨7, ⟨.input, .line 7⟩, none⟩)] := by decide +kernel

def writesSettings (f : Settings) (s : State) : Option (Status × List (List Byte)) :=
  reply .writeEntrySettings 1 (7 :: 0 :: f.bytes) s

theorem witness_SettingsWriteIsChecked :
    [writesSettings { Settings.default with cyclePeriod := 499 } rig,
      writesSettings { Settings.default with scrubRate := 9 } rig,
      writesSettings { Settings.default with cyclePeriod := 500 } (withPermit .tripped 0 rig),
      writesSettings { Settings.default with cyclePeriod := 20000, scrubRate := 8 } rig,
      writesSettings { Settings.default with scrubRate := 0 } (withPermit .tripped 0 rig)] =
    [some (.badValue, [[]]), some (.badValue, [[]]), some (.notDisarmed, [[]]), some (.ok, [[]]),
      some (.ok, [[]])] := by
  decide +kernel

/-- A load of the schedule is pending. -/
def loading : State := { rig with cl := rig.cl.setPending }

theorem witness_ShadowTableIsWrittenAndRead :
    reply .writeEntrySchedule 1 [8, 32, 0] rig = some (.badIndex, [[]]) ∧
      reply .writeEntrySchedule 1 [8, 31, 6] rig = some (.badValue, [[]]) ∧
      reply .writeEntrySchedule 1 [8, 31, 5] loading = some (.busy, [[]]) ∧
      view (·.cl.schedule.shadow[(31 : Fin 32)]) .writeEntrySchedule (ask 1 [8, 31, 0] rig) = some .reply ∧
      reply .readEntrySchedule 0 [8, 32] rig = some (.badIndex, [[]]) ∧
      reply .readEntrySchedule 0 [8, 0] rig = some (.ok, [[0, 0, 0, 0]]) := by decide +kernel

/-! ## Permits and trips -/

def keyArm (g : Byte) : List Byte := [g, 0x71#8, 0xE4#8]
def keyRun (g : Byte) : List Byte := [g, 0x2B#8, 0x9D#8]

/-- G2 is LIVE and half a service is done. -/
def halfServed : State := (withPermit .live 9 rig).modPermit 2 fun p => { p with halfDone := true }

theorem witness_KeysFollowTable_arm :
    reply .permitKeyKArm 2 (keyArm 2) (withPermit .tripped 0 rig) = some (.tripped, [[3, 0, 0]]) ∧
      reply .permitKeyKArm 2 (keyArm 2) (withPermit .primed 1 rig) = some (.ok, [[1, 0, 1]]) ∧
      reply .permitKeyKArm 2 (keyArm 2) (withPermit .live 1 rig) = some (.ok, [[2, 0, 1]]) ∧
      reply .permitKeyKArm 2 (keyArm 2) halfServed = some (.badKey, [[3, 0, 0]]) := by decide +kernel

theorem witness_KeysFollowTable_run :
    reply .permitKeyKRun 2 (keyRun 2) (withPermit .tripped 0 rig) = some (.tripped, [[3, 0, 0]]) ∧
      reply .permitKeyKRun 2 (keyRun 2) rig = some (.badKey, [[0, 0, 0]]) ∧
      reply .permitKeyKRun 2 (keyRun 2) (withPermit .primed 1 rig) = some (.ok, [[2, 0, 100]]) ∧
      reply .permitKeyKRun 2 (keyRun 2) halfServed = some (.ok, [[2, 0, 100]]) ∧
      reply .permitKeyKRun 2 (keyRun 2) (withPermit .live 1 rig) = some (.badKey, [[3, 0, 0]]) := by decide +kernel

/-- G2 is PRIMED or LIVE and its entry shows an error that cannot be corrected. -/
def spoiled (st : PermitState) : State :=
  (withPermit st 9 rig).modTables fun t => { t with groups := t.groups.set 2 ⟨group2, .uncorrectable, false⟩ }

theorem witness_KeysFollowTable_poisoned :
    (after .permitKeyKRun (ask 2 (keyRun 2) (spoiled .primed))).bind (fun t =>
        t.cl.replies.getLast?.map fun r => (r.status, t.permits[(2 : GroupIx)].cause)) =
      some (.tripped, some ⟨.tableFault, .entry (.group 2)⟩) := by decide +kernel

theorem witness_KeysFollowTable_other :
    reply .permitKeyOther 2 [2, 0x71#8, 0xE5#8] rig = some (.badKey, [[0, 0, 0]]) ∧
      reply .permitKeyOther 2 [2, 0, 0] (withPermit .primed 5 rig) = some (.badKey, [[1, 0, 5]]) ∧
      reply .permitKeyOther 2 [2, 0, 0] (withPermit .live 5 rig) = some (.badKey, [[3, 0, 0]]) ∧
      reply .permitKeyOther 2 [2, 0, 0] (withPermit .tripped 0 rig) = some (.tripped, [[3, 0, 0]]) := by decide +kernel

/-- E7 of A5 is poisoned. -/
def poisonedExtent : State :=
  { zoned with tables := { zoned.tables with extents := zoned.tables.extents.set 7 ⟨extent7, .clean, true⟩ } }

/-- IN7 is active and maps G2. -/
def stormy (s : State) : State := { s with inputs := s.inputs.set 7 ⟨.high, .high, 4⟩ }

/-- G2 needs a creep proof. -/
def proofNeeded : State :=
  rig.modTables fun t => { t with groups := t.groups.set 2 (.fresh { group2 with creepRequired := true }) }

theorem witness_ArmingTestsConditionsInOrder :
    [reply .permitKeyKArm 2 (keyArm 7) rig,
      reply .permitKeyKArm 2 (keyArm 2) poisonedExtent,
      reply .permitKeyKArm 2 (keyArm 2) (rig.modAxis 6 fun r => { r with checked := false }),
      reply .permitKeyKArm 2 (keyArm 2) (axis5With (fun r => { r with lost := true }) rig),
      reply .permitKeyKArm 2 (keyArm 2) (stormy rig),
      reply .permitKeyKArm 2 (keyArm 2) (creeping 0 0),
      reply .permitKeyKArm 2 (keyArm 2) proofNeeded,
      reply .permitKeyKArm 2 (keyArm 2) rig] =
    [some (.badIndex, [[0, 0, 0]]), some (.poisoned, [[0, 0, 0, 10, 7]]), some (.unchecked, [[0, 0, 0, 6]]),
      some (.notAtRest, [[0, 0, 0, 5]]), some (.inputActive, [[0, 0, 0, 7]]), some (.busy, [[0, 0, 0]]),
      some (.creepRequired, [[0, 0, 0, 0]]), some (.ok, [[1, 0, 50]])] := by decide +kernel

/-- A6 moves. -/
def moving6 (s : State) : State := s.modAxis 6 fun r => { r with latest := some (latestAt 60 false false) }

theorem witness_ParkNeedsMembersAtRest :
    [reply .park 3 [2] rig, reply .park 3 [2] (withPermit .tripped 0 rig), reply .park 3 [2] (withPermit .primed 1 rig),
      reply .park 3 [2] (moving6 (withPermit .live 9 rig)), reply .park 3 [2] (withPermit .live 9 rig)] =
    [some (.ok, [[0, 0, 0]]), some (.tripped, [[3, 0, 0]]), some (.ok, [[0, 0, 0]]), some (.notAtRest, [[2, 0, 9, 6]]),
      some (.ok, [[0, 0, 0]])] := by decide +kernel

/-- G2 is TRIPPED with a trip age. -/
def trippedFor (age : Word16) : State := (withPermit .tripped 0 rig).modPermit 2 fun p => { p with age := age }

theorem witness_ClearTripNeedsHoldLinesAndBrakes :
    [reply .clearTrip 5 [2] rig, reply .clearTrip 5 [2] (withPermit .live 9 rig), reply .clearTrip 5 [2] (trippedFor 3),
      reply .clearTrip 5 [2] (stormy (trippedFor 4)), reply .clearTrip 5 [2] (moving6 (trippedFor 4)),
      reply .clearTrip 5 [2] (trippedFor 4)] =
    [some (.ok, [[0, 0, 0]]), some (.badRequest, [[2, 0, 9]]), some (.holdTime, [[3, 0, 0, 0, 3, 4]]),
      some (.inputActive, [[3, 0, 0, 7]]), some (.notAtRest, [[3, 0, 0, 6]]), some (.ok, [[0, 0, 0]])] := by
  decide +kernel

theorem witness_ForceTripTripsAnyGroup :
    [reply .forceTrip 4 [7] rig, reply .forceTrip 4 [2] (withPermit .live 9 rig)] =
      [some (.ok, [[3, 0, 0]]), some (.ok, [[3, 0, 0]])] ∧
      view (·.permits[(2 : GroupIx)].further) .forceTrip (ask 4 [2] (trippedFor 0)) = some 1 := by decide +kernel

/-- An INPUT request to G2. -/
def inputRequest : TripRequest := ⟨2, ⟨.input, .line 7⟩, none⟩

/-- G2 is in a permit state and requests of step 3 and step 4 of samples are in flight to it. -/
def outrun (st : PermitState) : State :=
  { withPermit st 9 rig with
    inFlight := [(.sampleMonitor, ⟨2, ⟨.skew, .pair 4⟩, none⟩), (.tripUnit, inputRequest),
      (.sampleMonitor, ⟨2, ⟨.overspeed, .axis 5⟩, none⟩), (.sampleMonitor, ⟨2, ⟨.skew, .pair 4⟩, none⟩)] }

/-- A PARK behind a sample takes the monitor's requests up to the last of step 3, and only in PRIMED and LIVE (R61, R67). -/
theorem witness_ParkNeedsMembersAtRest_sample :
    allClean (outrun .live) = true ∧ (outrun .live).inFlight.any (fromSampleTo 2) = true ∧
      fromSampleTo 2 (.sampleMonitor, ⟨2, ⟨.overspeed, .axis 5⟩, none⟩) = true ∧
      [reply .park 3 [2] (outrun .live), reply .park 3 [2] (outrun .primed), reply .park 3 [2] (outrun .disarmed)] =
        [some (.tripped, [[3, 0, 0]]), some (.tripped, [[3, 0, 0]]), some (.ok, [[0, 0, 9]])] ∧
      (after .park (ask 3 [2] (outrun .live))).map (fun t =>
        (t.permits[(2 : GroupIx)].cause, t.permits[(2 : GroupIx)].further, t.inFlight.map (·.2.cause.cause))) =
        some (some ⟨.skew, .pair 4⟩, 1, [.input, .skew, .propagated]) := by decide +kernel

/-- Requests in flight from two senders. -/
def flying : State :=
  { withPermit .live 9 (sources [] false [entry5] none) with
    inFlight := [(.clPort, ⟨7, ⟨.supervisorLost, .port .cl⟩, none⟩), (.tripUnit, inputRequest), (.tripUnit, inputRequest)] }

theorem witness_TripRequestFollowsTable :
    rig.permitState 2 = .disarmed ∧ Cause.lapsed.commanded = false ∧ (trippedFor 0).permitState inputRequest.group = .tripped ∧
      rig.tripsOn inputRequest ∧ (withPermit .live 9 rig).tripsOn ⟨2, ⟨.lapsed, .none⟩, none⟩ ∧
      (flying.inFlight = [(.clPort, ⟨7, ⟨.supervisorLost, .port .cl⟩, none⟩)] ++
        (.tripUnit, inputRequest) :: [(.tripUnit, inputRequest)]) ∧
      view (fun t => (t.permits[(2 : GroupIx)].cause, t.inFlight.length)) (.tripRequest .tripUnit) flying =
        some (some ⟨.input, .line 7⟩, 3) :=
  ⟨by decide +kernel, rfl, by decide +kernel, .inr (.inr ⟨by decide +kernel, rfl⟩), .inr (.inl (by decide +kernel)), rfl,
    by decide +kernel⟩

theorem witness_TripRequestFollowsTable_resets :
    (resetting [.timer] flying).resets ≠ [] ∧
      view (·.inFlight.length) (.tripRequest .tripUnit) (resetting [.timer] flying) = some 3 := by decide +kernel

/-- A soft reset's evaluation has sent an INPUT request, with these replies waiting. -/
def evaluated (replies : List Reply) : State :=
  { rig with inFlight := [(.resetEvaluation, inputRequest)], cl := { rig.cl with replies := replies } }

/-- The request waits for the reply that accepts the soft reset, and for no other (R125). -/
theorem witness_TripRequestFollowsTable_evaluation :
    [[⟨7, 17, .ok, 0, [[]]⟩], [⟨7, 17, .notDisarmed, 0, [[]]⟩, ⟨7, 14, .ok, 0, [[0]]⟩], []].map (fun l =>
      view (fun t => (t.permitState 2, posted t != [])) (.tripRequest .resetEvaluation) (evaluated l)) =
      [some (.disarmed, false), some (.tripped, true), some (.tripped, true)] := by decide +kernel

theorem witness_TripStopsTheGroup :
    allClean flying = true ∧ flying.permitState inputRequest.group = .live ∧
      (flying.trip inputRequest).egress.stopSet[(1 : SegIx)] = [5, 6] ∧
      (flying.trip inputRequest).egress.setpoints[(1 : SegIx)] = [] ∧
      (flying.trip inputRequest).ring.slots[(0 : Fin 8)].isSome = true ∧
      (flying.trip inputRequest).inFlight.getLast? = some (.tripUnit, ⟨3, ⟨.propagated, .none⟩, some 2⟩) ∧
      (flying.trip inputRequest).brk[(2 : GroupIx)] = false := by decide +kernel

theorem witness_KeysFollowTable_reports :
    view posted .permitKeyKArm (ask 2 (keyArm 2) rig) = some [.permitChange 2 .disarmed .primed .armed 50] ∧
      view posted .permitKeyKRun (ask 2 (keyRun 2) (withPermit .primed 1 rig)) =
        some [.permitChange 2 .primed .live .run 100] ∧
      view posted .park (ask 3 [2] (withPermit .live 9 rig)) = some [.permitChange 2 .live .disarmed .parked 0] ∧
      view posted .clearTrip (ask 5 [2] (trippedFor 4)) = some [.permitChange 2 .tripped .disarmed .cleared 0] := by
  decide +kernel

/-- G2's creep run is running when the request is taken. -/
def flyingCreep : State := flying.modCreep 2 fun _ => ⟨.running, 9, 3, 7, .unknown⟩

/-- A link check of A5 whose CHECK still stands in its slot. -/
def unsent : State :=
  (sources [] false [] (some check5)).modCheck 1 fun _ => ⟨true, 5, .word, 0x4E71#16, false, 0, 0⟩

theorem witness_TripStopsTheGroup_reports :
    posted (flying.trip inputRequest) = [.trip 2 ⟨.input, .line 7⟩ none .live 0 1 2] ∧
      posted (flyingCreep.trip inputRequest) =
        [.creepDone 2 ⟨.aborted, 9, 3, 7, .unknown⟩ 20 (some (.trip .input)), .trip 2 ⟨.input, .line 7⟩ none .live 0 1 2] ∧
      unsent.tripsOn inputRequest ∧ unsent.checkedSegments 2 = [1] ∧
      (unsent.abortChecks (fun _ => true) [1]).egress.checkSlot[(1 : SegIx)] = none ∧
      posted (unsent.abortChecks (fun _ => true) [1]) = [.linkCheckDone 5 .aborted 1 .word 0x4E71#16 none 0] :=
  ⟨by decide +kernel, by decide +kernel, .inr (.inr ⟨by decide +kernel, rfl⟩), by decide +kernel⟩

/-! ## Zones, link checks and creep runs -/

/-- Z1 owned by G2, A5 outside E7 with travel into it queued. -/
def owned : State :=
  { withPermit .live 9 { zoned with egress := { zoned.egress with
      setpoints := zoned.egress.setpoints.set 1 [⟨5, .position, pos 200, 500, pos 50⟩] } } with
    zones := zoned.zones.set 1 (some 2) }

theorem witness_ZonesPassThroughFree :
    [reply .claimZone 6 [15, 7] rig, reply .claimZone 6 [15, 2] rig, reply .claimZone 6 [1, 2] owned,
      reply .claimZone 6 [1, 2] { rig with zones := rig.zones.set 1 (some 3) },
      reply .releaseZone 7 [1, 3] owned, reply .releaseZone 7 [1, 2] occupied, reply .releaseZone 7 [1, 2] owned] =
    [some (.badIndex, [[]]), some (.ok, [[]]), some (.ok, [[]]), some (.zoneHeld, [[3]]), some (.notOwner, [[]]),
      some (.occupied, [[5, 7]]), some (.ok, [[]])] ∧
      view (fun t => (t.zones[(1 : ZoneIx)], t.egress.setpoints[(1 : SegIx)])) .releaseZone (ask 7 [1, 2] owned) =
        some (none, []) := by decide +kernel

theorem witness_ZonesPassThroughFree_travel :
    owned.travelsInto 1 2 ⟨5, .position, pos 200, 500, pos 50⟩ = true ∧
      owned.travelsInto 1 2 ⟨5, .position, pos 199, 500, pos 50⟩ = false ∧
      owned.travelsInto 1 2 ⟨5, .hold, pos 200, 500, pos 50⟩ = false ∧
      owned.travelsInto 1 2 ⟨5, .position, pos 400, 500, pos 300⟩ = true := by decide +kernel

/-- A5's entry is poisoned. -/
def poisonedAxis : State :=
  rig.modTables fun t => { t with axes := t.axes.set 5 ⟨axis5, .clean, true⟩ }

theorem witness_LinkCheckStartsOppositePhase :
    [reply .linkCheck 8 [5] (withPermit .primed 1 rig), reply .linkCheck 8 [6] (checking 0), reply .linkCheck 8 [63] rig,
      reply .linkCheck 8 [5] poisonedAxis, reply .linkCheck 8 [5] rig] =
    [some (.notDisarmed, [[]]), some (.busy, [[5]]), some (.badIndex, [[]]), some (.poisoned, [[]]), some (.ok, [[0]])] ∧
      view (·.egress.checkSlot[(1 : SegIx)]) .linkCheck (ask 8 [5] rig) = some (some check5) := by decide +kernel

/-- A check in flight and an ECHO at the head of its path. -/
def echoing (f : EchoFrame) : State := (segmentPaths [] [f] (checking 0)).modAxis 5 fun r => { r with checked := false }

theorem witness_EchoIsJudgedAgainstCheck :
    allClean (echoing (echoFrame 0x4E71#16 .forward)) = true ∧
      [view (fun t => (t.checks[(1 : SegIx)].inFlight, t.axisRec[(5 : AxisIx)].checked)) (.echo 1)
          (echoing (echoFrame 0x4E71#16 .forward)),
        view (fun t => (t.checks[(1 : SegIx)].inFlight, t.axisRec[(5 : AxisIx)].checked)) (.echo 1)
          (echoing (echoFrame 0x4E71#16 .reversed)),
        view (fun t => (t.checks[(1 : SegIx)].inFlight, t.axisRec[(5 : AxisIx)].checked)) (.echo 1)
          (echoing (echoFrame 0x4E70#16 .forward)),
        view (fun t => (t.checks[(1 : SegIx)].inFlight, t.checks[(1 : SegIx)].stale == 1)) (.echo 1)
          (echoing (echoFrame 0xB18E#16 .forward)),
        view (fun t => (t.checks[(1 : SegIx)].inFlight, t.axisRec[(5 : AxisIx)].checked)) (.echo 1)
          (echoing { echoFrame 0x4E71#16 .forward with overtaken := true })] =
      [some (false, true), some (false, false), some (false, false), some (true, true), some (true, false)] := by
  decide +kernel

theorem witness_EchoIsJudgedAgainstCheck_reports :
    [view posted (.echo 1) (echoing (echoFrame 0x4E71#16 .forward)), view posted (.echo 1) (echoing (echoFrame 0x4E71#16 .reversed)),
        view posted (.echo 1) (echoing (echoFrame 0x4E70#16 .forward)),
        view posted (.echo 1) (echoing (echoFrame 0xB18E#16 .forward))] =
      [some [.linkCheckDone 5 .pass 1 .word 0x4E71#16 (some (0x4E71#16, .forward)) 0],
        some [.linkCheckDone 5 .polarity 1 .word 0x4E71#16 (some (0x4E71#16, .reversed)) 0],
        some [.linkCheckDone 5 .corrupt 1 .word 0x4E71#16 (some (0x4E70#16, .forward)) 0], some []] := by decide +kernel

theorem witness_CreepRunsAreMeasured :
    [reply .creepStart 9 [7, 0, 0] rig, reply .creepStart 9 [2, 0, 0] (withPermit .primed 1 rig),
      reply .creepStart 9 [2, 0, 0] (creeping 0 0), reply .creepStart 9 [2, 0, 0] (axis5With (fun r => { r with lost := true }) rig),
      reply .creepStart 9 [2, 0xFF#8, 0xFF#8] rig, reply .creepStop 10 [2] rig, reply .creepStop 10 [2] (creeping 5 0),
      reply .creepStop 10 [2] (creeping 0 3), reply .creepResult 11 [2] (creeping 5 3)] =
    [some (.badIndex, [[]]), some (.notDisarmed, [[]]), some (.busy, [[]]), some (.notAtRest, [[5]]), some (.ok, [[]]),
      some (.busy, [[]]), some (.badRequest, [[]]), some (.ok, [[0, 20, 1]]),
      some (.ok, [[1, 0, 5, 0, 3, 0, 20, 0]])] ∧
      ((creeping 0 0).addIncrement 2 65514).creep[(2 : GroupIx)].accumulator = 65534 ∧
      ((creeping 0 0).addIncrement 2 65515).creep[(2 : GroupIx)] = ⟨.saturated, 0, 0, 65535, .fail⟩ := by decide +kernel

theorem witness_CreepRunsAreMeasured_reports :
    view posted .creepStop (ask 10 [2] (creeping 0 3)) = some [.creepDone 2 ⟨.done, 0, 3, 20, .pass⟩ 20 none] ∧
      posted ((creeping 0 0).addIncrement 2 65514) = [] ∧
      posted ((creeping 0 0).addIncrement 2 65515) = [.creepDone 2 ⟨.saturated, 0, 0, 65535, .fail⟩ 20 none] ∧
      posted ((creeping 5 3).abortCreep State.trip 2 (.lost 5)) =
        [.creepDone 2 ⟨.aborted, 5, 3, 20, .unknown⟩ 20 (some (.lost 5))] ∧
      posted (rig.abortCreep State.trip 2 (.lost 5)) = [] := by decide +kernel

/-- The records of the test states show no error: the other states hold the tables of one of these. -/
theorem witness_sound_tables :
    [quiet, rig, zoned, paired false, paired true, proofNeeded, poisonedExtent, poisonedAxis].all allClean = true := by
  decide +kernel

theorem witness_sound_states :
    (withPermit .live 9 rig).Sound ∧ (creeping 5 3).Sound ∧ occupied.Sound ∧ owned.Sound ∧ flying.Sound :=
  ⟨sound_like (t := rig) (by decide +kernel) rfl, sound_like (t := rig) (by decide +kernel) rfl,
    sound_like (t := zoned) (by decide +kernel) rfl, sound_like (t := zoned) (by decide +kernel) rfl,
    sound_like (t := rig) (by decide +kernel) rfl⟩

/-! ## Samples -/

/-- A SAMPLE at the head of segment 1's path. -/
def sampled (f : SampleFrame) (s : State) : State := segmentPaths [f] [] s

theorem witness_LateSampleOnlyCounts :
    (sampled (sampleFrame 65535 1) rig).paths.sample[(1 : SegIx)] = [sampleFrame 65535 1] ∧
      (sampleFrame 65535 1).cycle ≠ (sampled (sampleFrame 65535 1) rig).timer.cycle ∧
      view (fun t => (t.axisRec[(5 : AxisIx)].lateCount, t.axisRec[(5 : AxisIx)].latest)) (.sample 1)
        (sampled (sampleFrame 65535 1) rig) = some (1, some (latestAt 50 true true)) := by decide +kernel

theorem witness_AcceptedSampleIsRecorded :
    view (fun t => (t.axisRec[(5 : AxisIx)].latest.map (·.position), t.axisRec[(5 : AxisIx)].arrived)) (.sample 1)
        (sampled (sampleFrame 0 150) rig) = some (some (pos 150), true) ∧
      view (·.axisRec[(6 : AxisIx)].latest.map (·.position)) (.sample 1)
        (sampled { sampleFrame 0 0 with axis := 6, position := BitVec.intMin 32 } rig) =
          some (some (BitVec.intMax 32)) ∧
      view (·.axisRec[(5 : AxisIx)].arrived) (.sample 1) (sampled { sampleFrame 0 1 with overtaken := true } rig) =
        some false ∧
      view (fun t => (t.axisRec[(5 : AxisIx)].arrived, t.cl.forward[(1 : SegIx)])) (.sample 1)
        (sampled (sampleFrame 0 1) poisonedAxis) = some (true, []) := by decide +kernel

/-- A sample with a drive fault trips its group ahead of the PARK behind it (R61). -/
theorem test_sample_before_PARK :
    ((after (.sample 1) (sampled { sampleFrame 0 50 with flags := ⟨true, true, true⟩ } (withPermit .live 9 rig))).bind
      fun t => view (fun u => (u.permitState 2, u.permits[(2 : GroupIx)].cause)) .park (ask 3 [2] t)) =
      some (.tripped, some ⟨.driveFault, .axis 5⟩) := by decide +kernel

/-- A sample of A5 as the monitor takes it. -/
def takenAt (x : Int) (v : Word16) (fault : Bool) (s : State) : Taken :=
  ⟨5, some 2, some (s.permitState 2), some (pos 50), ⟨pos x, v, ⟨false, false, fault⟩, 0, 0⟩⟩

theorem witness_EnvelopeSendsTripRequests :
    ((withPermit .live 9 zoned).envelopeStep (takenAt 1011 501 true (withPermit .live 9 zoned)) axis5).inFlight.map
        (·.2.cause.cause) = [.driveFault, .overtravel, .overspeed] ∧
      ((withPermit .live 9 zoned).envelopeStep (takenAt 1010 500 false (withPermit .live 9 zoned)) axis5).inFlight = [] ∧
      ((withPermit .live 9 zoned).envelopeStep (takenAt 300 0 false (withPermit .live 9 zoned)) axis5).inFlight.map
        (·.2.cause.cause) = [.zoneIntrusion] ∧
      (zoned.envelopeStep (takenAt 300 0 true zoned) axis5).inFlight = [] := by decide +kernel

theorem witness_EnvelopeSendsTripRequests_reports :
    posted (zoned.envelopeStep (takenAt 300 0 false zoned) axis5) =
        [.zoneIntrusionSeen 5 7 1 (pos 300) (some 2) (some .disarmed)] ∧
      posted ((axis5With (fun r => { r with intrusion := true }) zoned).envelopeStep (takenAt 300 0 false zoned) axis5) = [] ∧
      posted (zoned.envelopeStep (takenAt 301 0 false zoned) axis5) = [] ∧
      posted ((withPermit .live 9 zoned).envelopeStep (takenAt 300 0 false (withPermit .live 9 zoned)) axis5) = [] := by
  decide +kernel

theorem witness_CreepRunsAreMeasured_sample :
    (takenAt 150 0 false rig).group = some 2 ∧ (takenAt 150 0 false rig).previous = some (pos 50) ∧
      (((creeping 0 0).creepStep (takenAt 150 0 false rig)).creep[(2 : GroupIx)].accumulator) = 120 ∧
      (((creeping 0 0).creepStep { takenAt 150 0 false rig with previous := none }).creep[(2 : GroupIx)].accumulator) = 20 ∧
      ((rig.creepStep (takenAt 150 0 false rig)).creep[(2 : GroupIx)].accumulator) = 0 ∧
      { takenAt 150 0 false rig with group := none }.group = none := by decide +kernel

theorem witness_SkewFollowsTable :
    SkewState.step 10 11 .normal = .alarm ∧ SkewState.step 10 10 .normal = .normal ∧
      SkewState.step 10 5 .alarm = .normal ∧ SkewState.step 10 6 .alarm = .alarm ∧
      ((withPermit .live 9 (paired false)).evaluateSkew (takenAt 81 0 false (withPermit .live 9 rig)) 4 (pair4 false)
        (latestAt 60 true true)).inFlight = [(.sampleMonitor, ⟨2, ⟨.skew, .pair 4⟩, none⟩)] ∧
      ((withPermit .live 9 (paired false)).evaluateSkew (takenAt 80 0 false (withPermit .live 9 rig)) 4 (pair4 false)
        (latestAt 60 true true)).inFlight = [] := by decide +kernel

/-- P4 in ALARM. -/
def alarmed : State := (paired false).modPair 4 fun _ => ⟨.alarm, none⟩

theorem witness_SkewFollowsTable_reports :
    [71, 70].map (fun x => posted ((paired false).evaluateSkew (takenAt x 0 false rig) 4 (pair4 false)
        (latestAt 60 true true))) = [[.skewAlarm 4 true (pos 11) 0], []] ∧
      [65, 66].map (fun x => posted (alarmed.evaluateSkew (takenAt x 0 false rig) 4 (pair4 false)
        (latestAt 60 true true))) = [[.skewAlarm 4 false (pos 5) 0], []] := by decide +kernel

/-- A6 has a sample of this cycle. -/
def partnered (dual : Bool) : State := (paired dual).modAxis 6 fun r => { r with arrived := true }

theorem witness_SkewFollowsTable_evaluated :
    (partnered false).Sound ∧ rig.pairOf 5 = none ∧ (partnered false).pairOf 5 = some 4 ∧
      (partnered false).partnerOf 4 5 = some 6 ∧
      ((partnered false).skewStep (takenAt 71 0 false rig)).pairRec[(4 : PairIx)] = ⟨.alarm, some (pos 11, 0)⟩ ∧
      ((paired false).skewStep (takenAt 71 0 false rig)).pairRec[(4 : PairIx)] = ⟨.normal, none⟩ ∧
      ({ partnered false with tables := { (partnered false).tables with
        index := (partnered false).tables.index.set 6 ⟨some 2, none⟩ } } : State).partnerOf 4 5 = none :=
  ⟨sound_like (t := paired false) (by decide +kernel) rfl, by decide +kernel⟩

theorem witness_AcceptedSampleIsRecorded_steps :
    (partnered false).tables.axes[(5 : AxisIx)].poisoned = false ∧
      view (fun t => (t.pairRec[(4 : PairIx)].skewState, t.axisRec[(5 : AxisIx)].latest.map (·.position))) (.sample 1)
        (sampled (sampleFrame 0 71) (partnered false)) = some (.alarm, some (pos 71)) := by decide +kernel

theorem witness_CrossedWaypointFires :
    Sense.rising.crosses 100 99 100 = true ∧ Sense.rising.crosses 100 100 101 = false ∧
      Sense.falling.crosses 100 101 100 = true ∧ Sense.either.crosses 100 101 99 = true ∧
      ((marked (waypointAt .none) rig).waypointStep (takenAt 100 0 false rig)).waypoints[(5 : AxisIx)] = ⟨none, none⟩ ∧
      ((marked (waypointAt .none) rig).waypointStep (takenAt 99 0 false rig)).waypoints[(5 : AxisIx)].live.isSome = true ∧
      ((marked (waypointAt (.releaseZone 1)) owned).waypointStep (takenAt 100 0 false rig)).zones[(1 : ZoneIx)] = none ∧
      ((marked (waypointAt (.releaseZone 1)) occupied).waypointStep (takenAt 300 0 false rig)).zones[(1 : ZoneIx)] =
        some 2 := by decide +kernel

/-- The WAYPOINT report of A5 at a position. -/
def waypointReport (action : WaypointAction) (x : Int) (outcome : Option AutoOutcome) : ReportBody :=
  .waypoint 5 (waypointAt action) (pos x) 0 0 outcome

theorem witness_CrossedWaypointFires_reports :
    posted ((marked (waypointAt .none) rig).waypointStep (takenAt 100 0 false rig)) = [waypointReport .none 100 none] ∧
      posted ((marked (waypointAt (.releaseZone 1)) rig).waypointStep { takenAt 100 0 false rig with group := none }) =
        [waypointReport (.releaseZone 1) 100 (some .noGroup)] ∧
      posted ((marked (waypointAt (.releaseZone 1)) rig).waypointStep (takenAt 100 0 false rig)) =
        [waypointReport (.releaseZone 1) 100 (some .notOwner)] ∧
      posted ((marked (waypointAt (.releaseZone 1)) occupied).waypointStep (takenAt 300 0 false rig)) =
        [waypointReport (.releaseZone 1) 300 (some .occupied)] ∧
      posted ((marked (waypointAt (.releaseZone 1)) owned).waypointStep (takenAt 100 0 false rig)) =
        [.zoneChange 1 (some 2) none (.autoRelease 5), waypointReport (.releaseZone 1) 100 (some .released)] ∧
      ((marked (waypointAt (.releaseZone 1)) owned).waypointStep (takenAt 100 0 false rig)).egress.setpoints[(1 : SegIx)]
        = [] := by decide +kernel

/-! ## Setpoints -/

/-- A SETPOINT at the head of the path. -/
def pointed (address mode : Byte) (target : Int) (cap : Word16) (s : State) : State :=
  { s with paths := { s.paths with setpoint := [⟨address, setpointBytes mode (pos target) cap⟩] } }

/-- The queue of segment 1, and whether A5's refusal is reported. -/
def queued (c : Instr) (s : State) : Option (List SetpointEntry × Bool) :=
  view (fun t => (t.egress.setpoints[(1 : SegIx)], t.axisRec[(5 : AxisIx)].refusalReported)) c s

/-- A5 has no latest sample. -/
def unseen (s : State) : State := axis5With (fun r => { r with latest := none }) s

theorem witness_HoldAndBrakeAreQueued :
    [view (·.clPort.port.bad) .setpointBrake (pointed 0xFF#8 1 0 0 rig),
        view (·.clPort.port.bad) .setpointPosition (pointed 5 3 0 0 rig),
        view (·.clPort.port.bad) .setpointHold (pointed 5 1 0 32768 rig)] = [some 1, some 1, some 1] ∧
      [queued .setpointHold (pointed 5 1 0 32767 rig), queued .setpointHold (pointed 5 1 0 0 (unseen rig)),
        queued .setpointBrake (pointed 5 2 7 499 (unseen rig)), queued .setpointBrake (pointed 5 2 7 0 poisonedAxis)] =
      [some ([⟨5, .hold, pos 50, 500, pos 50⟩], false), some ([], true), some ([⟨5, .brake, pos 7, 499, pos 7⟩], false),
        some ([], true)] := by decide +kernel

/-- A5's entry names no segment. -/
def strayAxis : State := rig.modTables fun t => { t with axes := t.axes.set 5 (.fresh { axis5 with segment := 4 }) }

theorem witness_HoldAndBrakeAreQueued_operations :
    segOfByte rig.tables.axes[(5 : AxisIx)].held.segment = some 1 ∧ segOfByte strayAxis.tables.axes[(5 : AxisIx)].held.segment = none ∧
      ((rig.refuseSetpoint 5 .notLive ⟨.position, 0, 0⟩ none).refuseSetpoint 5 .zone ⟨.position, 0, 0⟩ none).cl.reports =
        [⟨.setpointRefused 5 .notLive .position 0 none, 0, 0, 0⟩] ∧
      (rig.enqueue entry5).egress.setpoints[(1 : SegIx)] = [entry5] := by decide +kernel

theorem witness_QueueEntriesReplaceInPlace :
    placeSetpoint entry5 [⟨6, .hold, 0, 0, 0⟩] = [⟨6, .hold, 0, 0, 0⟩, entry5] ∧
      placeSetpoint entry5 [⟨5, .hold, 0, 0, 0⟩, ⟨6, .hold, 0, 0, 0⟩] = [entry5, ⟨6, .hold, 0, 0, 0⟩] ∧
      placeForward forward5 [] = [forward5] := by decide +kernel

theorem witness_QueueEntriesReplaceInPlace_forward :
    axis5.forward = true ∧ segOfByte axis5.segment = some 1 ∧ AxisFields.default.forward = false ∧
      (rig.forwardStep (takenAt 50 0 false rig) axis5).cl.forward[(1 : SegIx)].map (·.axis) = [5] ∧
      (({ rig with cl := { rig.cl with tx := none } } : State).forwardStep (takenAt 50 0 false rig) axis5).cl.tx.isSome
        = true := by decide +kernel

/-- G2 is LIVE over zone extents. -/
def armed : State := withPermit .live 9 zoned

theorem witness_PositionIsJudgedInOrder :
    (armed.unitFollow 5 = none ∧ (paired true).unitFollow 5 = some 6) ∧
      [queued .setpointPosition (pointed 63 0 0 0 armed), queued .setpointPosition (pointed 5 0 0 0 rig),
        queued .setpointPosition (pointed 6 0 0 0 (withPermit .live 9 (paired true))),
        queued .setpointPosition (pointed 5 0 0 0 (withPermit .live 9 poisonedExtent)),
        queued .setpointPosition (pointed 5 0 0 0 (axis5With (fun r => { r with missCount := 1 }) armed)),
        queued .setpointPosition (pointed 5 0 200 600 armed), queued .setpointPosition (pointed 5 0 150 600 armed),
        queued .setpointPosition (pointed 5 0 1001 0 (axis5With (fun r => { r with latest := some (latestAt 950 true true) }) armed)),
        queued .setpointPosition (pointed 5 0 200 0 (axis5With (fun r => { r with latest := some (latestAt 100 true true) }) armed))] =
      [some ([], false), some ([], true), some ([⟨6, .hold, pos 60, 0, pos 60⟩], false),
        some ([⟨5, .hold, pos 50, 0, pos 50⟩], true), some ([⟨5, .hold, pos 50, 0, pos 50⟩], true),
        some ([⟨5, .position, pos 150, 500, pos 50⟩], false), some ([⟨5, .position, pos 150, 500, pos 50⟩], false),
        some ([⟨5, .hold, pos 950, 0, pos 950⟩], true), some ([⟨5, .hold, pos 100, 0, pos 100⟩], true)] := by
  decide +kernel

/-- E7 held as naming one axis, in single-bit error, where the last write named another; G2 is LIVE. -/
def slipped (held written : Byte) : State :=
  armed.modTables fun t => { t with
    extents := t.extents.set 7 ⟨{ extent7 with axis := held }, .single { extent7 with axis := written }, false⟩ }

/-- Check 4 reads an extent that names A5 as held, and one that names it as corrected; check 9 sees the corrected one. -/
theorem test_check_4_reads_held_and_corrected_extents :
    [(5, 7), (7, 5), (7, 13)].map (fun p => (after .setpointPosition (pointed 5 0 200 0 (axis5With
        (fun r => { r with latest := some (latestAt 100 true true) }) (slipped p.1 p.2)))).map fun t =>
          (t.tables.extentErrors.corrected, posted t == [.tableError (.extent 7) (.corrected 1) .admission],
            t.egress.setpoints[(1 : SegIx)].map (·.mode))) =
      [some (1, true, [.position]), some (1, false, [.hold]), some (0, false, [.position])] := by decide +kernel

/-- E7 of A5 shows a single-bit error at every read; G2 is LIVE and owns no zone. -/
def flaky : State :=
  armed.modTables fun t => { t with extents := t.extents.set 7 ⟨extent7, .lasting extent7, false⟩ }

/-- Checks 4 and 9 each read the extents, check 9 behind check 8 (R81, R139): accepted, then refused ZONE, then WINDOW. -/
theorem test_checks_4_and_9_each_read_the_extents :
    [(50, 100), (150, 200), (950, 1001)].map (fun p : Int × Int => (after .setpointPosition (pointed 5 0 p.2 500 (axis5With
        (fun r => { r with latest := some (latestAt p.1 true true) }) flaky))).map fun t =>
          (t.tables.extentErrors.corrected, t.egress.setpoints[(1 : SegIx)].map (·.mode))) =
      [some (2, [.position]), some (2, [.hold]), some (1, [.hold])] := by decide +kernel

/-- The dual-cast rig, LIVE, with A6's entry and record changed. -/
def cast (entry : Stored AxisFields) (f : AxisRecord → AxisRecord) : State :=
  withPermit .live 9 (((paired true).modTables fun t => { t with axes := t.axes.set 6 entry }).modAxis 6 f)

/-- A6's entry. -/
def follow6 : AxisFields := { axis5 with station := 4, mirrored := true }

/-- A6 at a position. -/
def follows (x : Int) (r : AxisRecord) : AxisRecord := { r with latest := some (latestAt x true true) }

/-- The pair of A5 with itself. -/
def selfPaired : State :=
  (cast (.fresh follow6) id).modTables fun t => { t with pairs := t.pairs.set 4 (.fresh { pair4 true with follow := 5 }) }

/-- E9 of A6 in Z1. -/
def zonedFollow : State :=
  (cast (.fresh follow6) id).modTables fun t => { t with extents := t.extents.set 9 (.fresh { extent7 with axis := 6, low := pos 155 }) }

theorem witness_PositionIsJudgedInOrder_unit :
    ((cast (.fresh follow6) id).unitFollow 5 = some 6 ∧ selfPaired.unitFollow 5 = some 5 ∧
        zonedFollow.unitFollow 5 = some 6) ∧
      [queued .setpointPosition (pointed 5 0 0 0 (cast (.fresh { follow6 with valid := false }) id)),
        queued .setpointPosition (pointed 5 0 0 0 (paired true)),
        queued .setpointPosition (pointed 5 0 0 0 (cast ⟨follow6, .clean, true⟩ id)),
        queued .setpointPosition (pointed 5 0 0 0 selfPaired),
        queued .setpointPosition (pointed 5 0 0 0 (cast (.fresh follow6) fun r => { r with missCount := 1 })),
        queued .setpointPosition (pointed 5 0 0 0 (cast (.fresh follow6) (follows 251))),
        queued .setpointPosition (pointed 5 0 900 0 (cast (.fresh { follow6 with softHigh := pos 149 }) id)),
        queued .setpointPosition (pointed 5 0 155 600 zonedFollow),
        queued .setpointPosition (pointed 5 0 150 600 (cast (.fresh follow6) (follows 250)))] =
      [some ([], true), some ([], true), some ([⟨5, .hold, pos 50, 0, pos 50⟩], true),
        some ([⟨5, .hold, pos 50, 0, pos 50⟩], true),
        some ([⟨5, .hold, pos 50, 0, pos 50⟩, ⟨6, .hold, pos 60, 0, pos 60⟩], true),
        some ([⟨5, .hold, pos 50, 0, pos 50⟩, ⟨6, .hold, pos 251, 0, pos 251⟩], true),
        some ([⟨5, .hold, pos 50, 0, pos 50⟩, ⟨6, .hold, pos 60, 0, pos 60⟩], true),
        some ([⟨5, .position, pos 150, 500, pos 50⟩, ⟨6, .position, pos 150, 500, pos 60⟩], false),
        some ([⟨5, .position, pos 150, 500, pos 50⟩, ⟨6, .position, pos 150, 500, pos 250⟩], false)] := by decide +kernel

theorem witness_PositionIsJudgedInOrder_unit_zone :
    queued .setpointPosition (pointed 5 0 150 0 (zonedFollow.modTables fun t =>
        { t with extents := t.extents.set 9 (.fresh { extent7 with axis := 6, low := pos 150 }) })) =
      some ([⟨5, .hold, pos 50, 0, pos 50⟩, ⟨6, .hold, pos 60, 0, pos 60⟩], true) ∧
    view (fun t => (t.axisRec[(5 : AxisIx)].clampCount, t.axisRec[(6 : AxisIx)].clampCount)) .setpointPosition
        (pointed 5 0 151 0 (cast (.fresh follow6) id)) = some (1, 1) ∧
    (rig.holdInPlace 5).egress.setpoints[(1 : SegIx)] = [⟨5, .hold, pos 50, 0, pos 50⟩] ∧
    ((unseen rig).holdInPlace 5).egress.setpoints[(1 : SegIx)] = [] := by decide +kernel

/-- An axis with a reference and a max step. -/
def moverAt (x : Int) (step : Word16) : Mover := ⟨5, pos x, { axis5 with maxStep := step }⟩

theorem witness_CommonTargetIsNearest :
    stepLow [moverAt 0 100, moverAt 200 100] ≤ stepHigh [moverAt 0 100, moverAt 200 100] ∧
      stepHigh [moverAt 0 100, moverAt 201 100] < stepLow [moverAt 0 100, moverAt 201 100] := by decide +kernel

/-! ## Management, lines and integrity -/

/-- The shadow table names REPLY alone. -/
def oneSource : State :=
  { rig with cl := { rig.cl with schedule := { rig.cl.schedule with shadow := Vector.replicate 32 .reply } } }

/-- The CL transmitter is IDLE and nothing waits. -/
def clIdle : State := { rig with cl := { rig.cl with tx := none } }

theorem witness_ScheduleLoadNeedsEverySource :
    [reply .loadSchedule 12 [] loading, reply .loadSchedule 12 [] oneSource, reply .loadSchedule 12 [] rig] =
      [some (.busy, [[]]), some (.badSchedule, [[1]]), some (.ok, [[1]])] ∧
      clIdle.cl.tx = none ∧ clIdle.cl.anyWaiting = false ∧
      (loadSchedule clIdle).parts = [[0]] ∧ (loadSchedule clIdle).state.cl.schedule.loadPending = false := by
  decide +kernel

theorem witness_ScheduleLoadNeedsEverySource_report :
    reportEnabled clIdle.settings.reportMask .scheduleLoaded = true ∧ reportEnabled 0 .scheduleLoaded = false ∧
      (loadSchedule clIdle).state.cl.tx.isSome = true ∧ (loadSchedule clIdle).state.cl.schedule.pointer = 5 ∧
      (loadSchedule { clIdle with settings := { Settings.default with reportMask := 0 } }).state.cl.tx = none := by
  decide +kernel

/-- A trip record in every slot, the write pointer at 3. -/
def recorded : State :=
  { rig with ring := ⟨Vector.replicate 8 (some ⟨9, 2, ⟨.forced, .none⟩, none, .live, 1, 2, []⟩), 3, 7, 9⟩ }

theorem witness_TripRecordsAreReadInTurn :
    reply .readTripRecord 13 [] rig = some (.empty, [[1, 0]]) ∧
      reply .readTripRecord 13 [] recorded =
        some (.ok, [[1, 7, 0, 9, 2, 11, 0, 255, 255, 2, 0, 1, 0, 0, 0, 2, 0]]) ∧
      view (·.ring.readPtr) .readTripRecord (ask 13 [] recorded) = some 0 ∧
      reply .rewindTripRecords 14 [] rig = some (.ok, [[0]]) ∧
      reply .rewindTripRecords 14 [] recorded = some (.ok, [[3]]) := by decide +kernel

theorem witness_StatusPagesChangeNothing :
    [reply .readStatus 15 [0] rig, reply .readStatus 15 [4] rig] =
      [some (.ok, [[0x64#8, 1, 64, 8, 32, 16, 128, 8, 8, 32, 32, 32, 8, 8, 32]]),
        some (.ok, [[0, 0, 0, 0, 0, 0, 7, 208]])] ∧
      (reply .readStatus 15 [1] rig).map (fun r => r.2.map (·.length)) = some [30] := by decide +kernel

theorem witness_ClearCountersClearsOnlyCounters :
    (ask 16 [] (trippedFor 5)).Presents (req 16 []) .clearCounters ∧
      view (fun t => (t.permits[(2 : GroupIx)].further, t.clPort.port.bad)) .clearCounters
        (ask 16 [] (((trippedFor 5).modPermit 2 fun p => { p with further := 9 }).countBad .cl)) = some (9, 0) :=
  ⟨presents_ask rfl (by decide) (by decide), by decide +kernel⟩

theorem witness_SoftResetKeepsWrittenContents :
    (ask 17 [] rig).Presents (req 17 []) .softReset ∧ (ask 17 [] rig).Sound ∧
      reply .softReset 17 [] (withPermit .tripped 0 rig) = some (.notDisarmed, [[2]]) ∧
      reply .softReset 17 [] rig = some (.ok, [[]]) ∧
      view (fun t => (t.resets, t.requests)) .softReset (ask 17 [] rig) = some (ResetBlock.all, []) :=
  ⟨presents_ask rfl (by decide) (by decide), sound_like (t := rig) (by decide +kernel) rfl, by decide +kernel⟩

theorem witness_SoftResetKeepsWrittenContents_blocks :
    (resetting ResetBlock.all rig).Sound ∧ (resetting ResetBlock.all rig).resets = ResetBlock.all ∧
      view (fun t => (t.resets, t.timer, t.egress.beacon[(1 : SegIx)])) .softReset (resetting [.timer, .monitor] (atPhase 9)) =
        some ([.monitor], ⟨0, 0, 2000#16, 0⟩, true) ∧
      view (fun t => (t.resets, t.axisRec[(5 : AxisIx)].latest, t.axisRec[(5 : AxisIx)].checked)) .softReset
        (resetting [.admission, .monitor, .trip] rig) = some ([.admission, .trip], none, true) ∧
      view (fun t => (t.resets, t.inFlight.map (·.2.group))) .softReset (resetting [.trip] (stormy rig)) =
        some ([], [2]) ∧
      (resetting [.check] rig).finishResets.axisRec[(5 : AxisIx)].checked = false :=
  ⟨sound_like (t := rig) (by decide +kernel) rfl, rfl, by decide +kernel⟩

theorem witness_ActiveLineSendsRequests :
    rig.inputs[(7 : LineIx)].held = .low ∧ (Level.high : Level) ≠ rig.inputs[(7 : LineIx)].held ∧
      view (·.inFlight) (.inputLevelChange 7 .high) (stormy rig) = some [] ∧
      view (fun t => t.inFlight.map (·.2.group)) (.inputLevelChange 7 .high)
        { rig with inputs := rig.inputs.set 7 ⟨.low, .high, 0x84#8⟩ } = some [2, 7] ∧
      view posted (.inputLevelChange 7 .high) { rig with inputs := rig.inputs.set 7 ⟨.low, .high, 0x84#8⟩ } =
        some [.inputChange 7 .high true 0x84#8] ∧
      view posted (.inputLevelChange 7 .low) { rig with inputs := rig.inputs.set 7 ⟨.high, .high, 0x84#8⟩ } =
        some [.inputChange 7 .low false 0x84#8] := by decide +kernel

/-- G2 is TRIPPED and mapped by IN7, which is not active. -/
def calm : State := { trippedFor 0 with inputs := (trippedFor 0).inputs.set 7 ⟨.low, .high, 4⟩ }

/-- G2 was LIVE when L7 became active, and is TRIPPED by another request, its hold over, before the INPUT request of the line
is taken. -/
def overtaken : Option State :=
  (after (.inputLevelChange 7 .high) { withPermit .live 9 rig with inputs := calm.inputs }).map fun t =>
    (withPermit .tripped 0 t).modPermit 2 fun p => { p with age := 4 }

/-- R105, line first: the INPUT request is a further cause, and CLEAR_TRIP is refused. -/
theorem test_line_before_CLEAR_TRIP :
    (overtaken.bind fun t => view (fun u => (u.permitState 2, u.permits[(2 : GroupIx)].further)) (.tripRequest .tripUnit) t) =
        some (.tripped, 1) ∧
      ((overtaken.bind (after (.tripRequest .tripUnit))).bind (reply .clearTrip 5 [2])) =
        some (.inputActive, [[3, 0, 0, 7]]) := by decide +kernel

/-- R105, CLEAR_TRIP first, the line inactive again: the INPUT request then trips the group. -/
theorem test_CLEAR_TRIP_before_line :
    ((overtaken.bind (after (.inputLevelChange 7 .low))).bind fun t => after .clearTrip (ask 5 [2] t)).map (fun t =>
        (t.permitState 2, view (fun u => (u.permitState 2, u.permits[(2 : GroupIx)].cause)) (.tripRequest .tripUnit) t)) =
      some (.disarmed, some (.tripped, some ⟨.input, .line 7⟩)) := by decide +kernel

/-- G2 is TRIPPED with its hold over, IN7 maps it and is not active, and its CLEAR_TRIP is at the head. -/
def racing : State := ask 5 [2] { trippedFor 4 with inputs := calm.inputs }

/-- IN7 has become active first, and has sent INPUT to G2 or not. -/
def risen (also : Option GroupIx) : State := (stormy racing).sendInputs .tripUnit 7 also

/-- R105, "Line first", where the request is sent: it is a further cause, and CLEAR_TRIP is refused. -/
theorem test_line_reaches_TRIPPED :
    view (fun u => (u.permitState 2, u.permits[(2 : GroupIx)].further)) (.tripRequest .tripUnit) (risen (some 2)) =
        some (.tripped, 1) ∧
      view (·.permitState 2) .clearTrip (risen (some 2)) = some .tripped := by decide +kernel

/-- R124, "Line event first", where it is not: no request, and CLEAR_TRIP is refused. -/
theorem test_line_skips_TRIPPED :
    (risen none).inFlight = [] ∧ view (·.permitState 2) .clearTrip (risen none) = some .tripped := by decide +kernel

/-- A TRIPPED group with no CLEAR_TRIP to be taken gets no request (R124). -/
theorem witness_ActiveLineSendsRequests_tripped :
    Level.high ≠ calm.inputs[(7 : LineIx)].held ∧ 2 ∈ groupsOf calm.inputs[(7 : LineIx)].groups ∧
      calm.permitState 2 = .tripped ∧
      view posted (.inputLevelChange 7 .high) calm = some [.inputChange 7 .high true 4] ∧
      view (fun t => (t.inFlight, t.activeLineFor 2)) (.inputLevelChange 7 .high) calm = some ([], some 7) := by
  decide +kernel

/-- Only in the race is the request free: G2's CLEAR_TRIP would be accepted, and one before its hold is over would not. -/
theorem witness_ActiveLineSendsRequests_race :
    racing.Presents (req 5 [2]) (.clearTrip (natByte (2 : GroupIx))) ∧ racing.permitState 2 = .tripped ∧
      (clearTripGroup 2 racing.popRequest).status = .ok ∧ racing.clearing = some 2 ∧
      view (·.inFlight) (.inputLevelChange 7 .high) (ask 5 [2] { trippedFor 3 with inputs := calm.inputs }) = some [] :=
  ⟨presents_ask rfl (by decide) (by decide), by decide +kernel⟩

/-- A write that makes a line active sends a TRIPPED group none (R124). -/
theorem witness_WaypointAndInputWrites_tripped :
    view (·.inFlight) .writeEntryInput (ask 1 [6, 7, 0, 0x84#8] (trippedFor 4)) =
      some [(.tripUnit, ⟨7, ⟨.input, .line 7⟩, none⟩)] := by decide +kernel

/-- A5's entry with a condition of its check bits. -/
def damaged (c : CheckState AxisFields) (s : State) : State :=
  s.modTables fun t => { t with axes := t.axes.set 5 ⟨axis5, c, false⟩ }

theorem witness_CheckedReadCorrectsOrPoisons :
    rig.tables.outcome (.axis 5) = .clean ∧ poisonedAxis.tables.outcome (.axis 5) = .already ∧
      (damaged (.single axis5) rig).tables.outcome (.axis 5) = .single ∧
      ((damaged (.single axis5) rig).touch .monitor (.axis 5)).tables.axisErrors = ⟨1, false, .corrected 5⟩ ∧
      (damaged .uncorrectable rig).tables.outcome (.axis 5) = .uncorrectable ∧
      (damaged .uncorrectable (withPermit .live 9 rig)).namedGroup (.axis 5) = some 2 ∧
      (((damaged .uncorrectable (withPermit .live 9 rig)).touch .monitor (.axis 5)).permits[(2 : GroupIx)].cause) =
        some ⟨.tableFault, .entry (.axis 5)⟩ := by decide +kernel

theorem witness_CheckedReadCorrectsOrPoisons_reports :
    posted ((damaged (.single axis5) rig).touch .monitor (.axis 5)) = [.tableError (.axis 5) (.corrected 1) .monitor] ∧
      (damaged .uncorrectable unsent).tables.outcome (.axis 5) = .uncorrectable ∧
      posted ((damaged .uncorrectable unsent).touch .check (.axis 5)) =
        [.tableError (.axis 5) (.uncorrectable (some 2)) .check, .linkCheckDone 5 .aborted 1 .word 0x4E71#16 none 0] ∧
      ((damaged .uncorrectable unsent).touch .check (.axis 5)).egress.checkSlot[(1 : SegIx)] = none ∧
      posted ((spoiled .live).touch .trip (.group 2)) =
        [.tableError (.group 2) (.uncorrectable (some 2)) .trip,
          .trip 2 ⟨.tableFault, .entry (.group 2)⟩ none .live 0 1 2] := by decide +kernel

theorem witness_CheckedReadCorrectsOrPoisons_lasting :
    (damaged (.lasting axis5) rig).tables.outcome (.axis 5) = .single ∧
      (damaged (.lasting axis5) rig).tables.lasts (.axis 5) = true ∧
      ((damaged (.lasting axis5) rig).touch .monitor (.axis 5)).tables.outcome (.axis 5) = .single := by decide +kernel

/-! ## The laws: a state with a LIVE group, a queued POSITION setpoint and a command to run -/

/-- The state in which every law is shown to hold. -/
def lawful : State :=
  { withPermit .live 9 { zoned with egress := { zoned.egress with
      setpoints := zoned.egress.setpoints.set 1 [⟨5, .position, pos 150, 500, pos 50⟩] } } with
    pending := [.clDown] }

theorem witness_laws_step : Machine.step lawful = .next { lawful with pending := [] } := by
  show Host.Outcome.next _ = _
  rw [if_neg (by decide +kernel)]

theorem witness_laws_sound : lawful.Sound := sound_like (t := zoned) (by decide +kernel) rfl

theorem witness_BrakeFollowsLive : BrakeLaw lawful := by
  show ∀ g : GroupIx, lawful.brk[g] = (lawful.permitState g == .live)
  decide +kernel

theorem witness_CountersStayInRange : LapseLaw lawful ∧ TimerLaw lawful ∧ ScheduleLaw lawful := by
  refine ⟨?_, ⟨?_, ?_, ?_, ?_⟩, ?_, ?_⟩
  · show ∀ g : GroupIx, _
    decide +kernel
  all_goals decide +kernel

theorem witness_CountersStayInRange_groups : RangeLaw lawful ∧ LapseBoundLaw lawful := by
  have hg : ∀ g : GroupIx, lawful.tables.groups[g].intended.valid = true →
      lawful.tables.groups[g].intended.inRange g = true := by decide +kernel
  refine ⟨fun g _ => hg g, ?_⟩
  · show ∀ g : GroupIx, _
    decide +kernel

theorem witness_QueuesStayWithinBounds : QueueLaw lawful ∧ OneEachLaw lawful := by
  refine ⟨⟨?_, ?_, ?_, ?_, ?_⟩, ?_⟩
  · decide +kernel
  · decide +kernel
  · decide +kernel
  · decide +kernel
  · show ∀ sg : SegIx, _
    decide +kernel
  · show ∀ sg : SegIx, _
    decide +kernel

theorem witness_QueuesStayWithinBounds_axes : AxisRangeLaw lawful ∧ QueuedLaw lawful := by
  have ha : ∀ a : AxisIx,
      (lawful.tables.axes[a].intended.valid = true → lawful.tables.axes[a].intended.inRange = true) ∧
        (lawful.tables.axes[a].intended.valid = false → lawful.tables.axes[a].intended = AxisFields.default) := by
    decide +kernel
  refine ⟨fun a _ => ha a, fun sg => ⟨fun q hq => ?_, fun e he => ?_⟩⟩
  · have hs : ∀ k : SegIx, ∀ q ∈ lawful.egress.setpoints[k], k = 1 ∧ q = entry5 := by decide +kernel
    obtain ⟨rfl, rfl⟩ := hs sg q hq
    exact ⟨by decide +kernel, by decide +kernel, by decide +kernel⟩
  · have hs : ∀ k : SegIx, lawful.cl.forward[k] = [] := by decide +kernel
    rw [hs sg] at he
    exact absurd he (List.not_mem_nil)

/-- The valid entries of the rig are those of A5 and A6. -/
theorem rig_valid (a : AxisIx) (h : lawful.tables.axes[a].intended.valid = true) : a = 5 ∨ a = 6 := by
  revert a
  decide +kernel

theorem witness_TablesStayConsistent : StationLaw lawful ∧ IndexLaw lawful := by
  have h56 : lawful.tables.axes[(5 : AxisIx)].intended.station ≠ lawful.tables.axes[(6 : AxisIx)].intended.station := by
    decide +kernel
  have hm : ∀ g : GroupIx, ∀ a : AxisIx,
      natByte a ∈ lawful.tables.groups[g].intended.members ↔ lawful.groupOf a = some g := by decide +kernel
  have hv : ∀ a : AxisIx, (lawful.groupOf a).isSome = true → lawful.tables.axes[a].intended.valid = true := by
    decide +kernel
  refine ⟨fun a b hab _ _ ha hb h => ?_, fun g _ => hm g, fun a ha _ => hv a ha⟩
  rcases rig_valid a ha with rfl | rfl <;> rcases rig_valid b hb with rfl | rfl
  · exact hab rfl
  · exact h56 h.2
  · exact h56 h.2.symm
  · exact hab rfl

theorem witness_QueuedMotionIsPermitted : PositionLaw lawful := by
  intro sg q hq _
  have hs : ∀ k : SegIx, ∀ q ∈ lawful.egress.setpoints[k], q = entry5 := by decide +kernel
  obtain rfl := hs sg q hq
  refine ⟨2, by decide +kernel, by decide +kernel, by decide +kernel, by decide +kernel, ?_⟩
  decide +kernel

theorem witness_ArmedGroupsStayChecked : ArmedLaw lawful := by
  show ∀ g : GroupIx, _
  decide +kernel

end Sys2Proof.Tests
end

section
/-! PROOF. The late sample: what the monitor does with one, and what keeps and clears the late count. -/

namespace Sys2Proof.Machine

/-! ## Taking a SAMPLE -/

/-- The monitor takes the frame at the head of the path (R57, R162). -/
theorem exec_sample_head {s : State} {sg : SegIx} {f : SampleFrame} {rest : List SampleFrame}
    (hhead : s.paths.sample[sg] = f :: rest) :
    exec (.sample sg) s =
      .next (({ s with paths := { s.paths with sample := s.paths.sample.set sg rest } }.takeSample f).settle) := by
  show execSample sg s = _
  unfold execSample
  rw [hhead]

/-- A frame that was not overtaken and names another cycle is late (R26). -/
theorem takeSample_late {s : State} {f : SampleFrame} (hover : f.overtaken = false) (hcycle : f.cycle ≠ s.timer.cycle) :
    s.takeSample f = s.modAxis f.axis fun r => { r with lateCount := satInc r.lateCount } := by
  unfold State.takeSample
  rw [if_neg (by simp [hover]), if_neg hcycle]

/-! ## The late count -/

/-- The end of a link check touches no axis record. -/
theorem abortChecks_axisRec (q : AxisIx → Bool) (l : List SegIx) (s : State) :
    (s.abortChecks q l).axisRec = s.axisRec := by rw [abortChecks_eq]

theorem dropAxisEntries_axisRec (a : AxisIx) (s : State) : (s.dropAxisEntries a).axisRec = s.axisRec := rfl

/-- Of the axis records, an accepted axis write changes its own alone, whether or not it overtakes frames (R3, R8). -/
theorem storeAxis_axisRec (s : State) (b : AxisIx) (f : AxisFields) :
    (s.storeAxis b f).axisRec = upd s.axisRec b AxisRecord.written := by
  simp only [State.storeAxis, apply_ite State.axisRec, dropAxisEntries_axisRec, abortChecks_axisRec,
    State.modAxis_axisRec, State.modTables_axisRec, ite_self]

/-- The written record keeps its late count, and every other record is kept whole (R8). -/
theorem storeAxis_lateCount (s : State) (a b : AxisIx) (f : AxisFields) :
    (s.storeAxis b f).axisRec[a].lateCount = s.axisRec[a].lateCount := by
  rw [storeAxis_axisRec, upd_get]
  split
  · next hab =>
    subst hab
    rfl
  · rfl

/-- CLEAR_COUNTERS (R149). -/
theorem clearCounters_lateCount (s : State) (a : AxisIx) : s.clearCounters.axisRec[a].lateCount = 0 := by
  simp [State.clearCounters]

/-- The sample monitor's soft reset (R17, R78). -/
theorem resetMonitor_lateCount (s : State) (a : AxisIx) : s.resetMonitor.axisRec[a].lateCount = 0 := by
  simp [State.resetMonitor, AxisRecord.monitorReset, AxisRecord.reset]

/-- Pin reset (R17). -/
theorem pinReset_lateCount (s : State) (a : AxisIx) (pins : Vector Level 8) :
    (s.pinReset pins).axisRec[a].lateCount = 0 := by
  simp [State.pinReset, State.reset, AxisRecord.reset]

/-- Settles O39: the late frame is taken by its one branch, and each event's effect on the late count is read off its
axis records. -/
theorem lateSampleOnlyCounts : Obligations.LateSampleOnlyCounts := by
  refine ⟨fun s sg f rest hhead hover hcycle => ?late, storeAxis_lateCount, fun s a => ?cleared⟩
  case late =>
    rw [exec_sample_head hhead, takeSample_late hover]
    exact hcycle
  case cleared =>
    exact ⟨clearCounters_lateCount s a, resetMonitor_lateCount s a, pinReset_lateCount s a⟩

end Sys2Proof.Machine
end

section
/-! PROOF. The brake-release lines follow the permits: what each change of a permit does to its line, and that every
other primitive change of a step touches neither. -/

namespace Sys2Proof.Machine

/-! ## A permit and its line -/

/-- A permit that changes together with its line, which is asserted for LIVE alone (R94 to R97, R99, R102, R104). -/
theorem brakeLaw_modPermit_setBrk {s : State} {g : GroupIx} {f : Permit → Permit} {b : Bool}
    (hb : b = ((f s.permits[g]).state == .live)) (hs : BrakeLaw s) : BrakeLaw ((s.modPermit g f).setBrk g b) := by
  intro k
  simp only [State.permitState, State.setBrk_brk, State.setBrk_permits, State.modPermit_brk, State.modPermit_permits,
    set_get, upd_get]
  split
  · exact hb
  · exact hs k

/-- A permit that keeps its state needs no change of its line. -/
theorem brakeLaw_modPermit {s : State} {g : GroupIx} {f : Permit → Permit}
    (hf : (f s.permits[g]).state = s.permits[g].state) (hs : BrakeLaw s) : BrakeLaw (s.modPermit g f) := by
  intro k
  simp only [State.permitState, State.modPermit_brk, State.modPermit_permits, upd_get]
  split
  · next hgk =>
    subst hgk
    rw [hf]
    exact hs g
  · exact hs k

/-- Either reset leaves every permit DISARMED and every line released (R106, R109). -/
theorem brakeLaw_of_reset {s : State} (hbrk : s.brk = Vector.replicate 8 false)
    (hpermits : s.permits = Vector.replicate 8 .reset) : BrakeLaw s := by
  intro g
  simp [State.permitState, hbrk, hpermits, Permit.reset]

theorem clearFurther_state (p : Permit) : p.clearFurther.state = p.state := by
  unfold Permit.clearFurther
  split <;> rfl

/-! ## Every primitive change -/

theorem brakeLaw_closeCheck (sg : SegIx) : Keeps BrakeLaw (State.closeCheck sg) := by
  intro s hs
  unfold State.closeCheck
  simp only
  split <;> exact hs

theorem brakeLaw_enqueue (e : SetpointEntry) : Keeps BrakeLaw (State.enqueue e) := by
  intro s hs
  unfold State.enqueue
  split <;> exact hs

theorem brakeLaw_queueRequest (r : Request) : Keeps BrakeLaw (State.queueRequest r) := by
  intro s hs
  unfold State.queueRequest
  split <;> exact hs

theorem brakeLaw_pathSetpoint (f : SetpointFrame) : Keeps BrakeLaw (State.pathSetpoint f) := by
  intro s hs
  unfold State.pathSetpoint
  split <;> exact hs

theorem brakeLaw_pathSample (sg : SegIx) (f : SampleFrame) : Keeps BrakeLaw (State.pathSample sg f) := by
  intro s hs
  unfold State.pathSample
  split <;> exact hs

theorem brakeLaw_pathEcho (sg : SegIx) (f : EchoFrame) : Keeps BrakeLaw (State.pathEcho sg f) := by
  intro s hs
  unfold State.pathEcho
  split <;> exact hs

/-- CLEAR_COUNTERS rewrites every permit record, but none of their states (R149). -/
theorem brakeLaw_clearCounters : Keeps BrakeLaw State.clearCounters := by
  intro s hs g
  have hstate : s.clearCounters.permitState g = s.permitState g := by
    simp [State.permitState, State.clearCounters, clearFurther_state]
  rw [hstate]
  exact hs g

/-- Of the blocks' soft resets only the permit unit's touches a permit or a line, and it resets them all (R109, R154). The
trip unit's, which evaluates the lines, is taken apart by StepClosed. -/
theorem brakeLaw_resetBlock (b : ResetBlock) (s : State) (hb : b ≠ .trip) (hs : BrakeLaw s) :
    BrakeLaw (s.resetBlock b) := by
  cases b with
  | permit => exact brakeLaw_of_reset rfl rfl
  | trip => exact absurd rfl hb
  | port p => cases p <;> exact hs
  | tables | timer | monitor | admission | zone | check | management | scheduler => exact hs

/-- A trip releases the line of the group that leaves for TRIPPED (R102, R106). -/
theorem brakeLaw_tripClosed : TripClosed BrakeLaw where
  toTripped := fun _ _ _ hs => brakeLaw_modPermit_setBrk rfl hs
  further := fun _ _ _ hs => brakeLaw_modPermit rfl hs
  close := brakeLaw_closeCheck
  post := fun _ _ hs => hs
  corrected := fun _ _ _ hs => hs
  poisoned := fun _ _ _ hs => hs
  drop := fun _ _ hs => hs
  stop := fun _ _ _ hs => hs
  purge := fun _ _ hs => hs
  creepEnd := fun _ _ _ _ _ hs => hs
  record := fun _ _ _ _ hs => hs
  send := fun _ _ hs => hs
  draw := fun _ hs => hs

theorem brakeLaw_egressClosed : EgressClosed BrakeLaw where
  toTripClosed := brakeLaw_tripClosed
  sendCheck := sendCheck_keeps brakeLaw_tripClosed (fun _ _ _ hs => hs) (fun _ _ hs => hs) (fun _ _ hs => hs)
  transmit := fun _ _ _ hs => hs
  unstop := fun _ _ _ hs => hs
  unbeacon := fun _ _ hs => hs
  dequeue := fun _ _ hs => hs

/-- A permit that changes other than to TRIPPED sets its line by the state it enters (R106, R108). -/
theorem brakeLaw_cycleClosed : CycleClosed BrakeLaw where
  toEgressClosed := brakeLaw_egressClosed
  permit := fun _ _ _ _ _ _ hs => brakeLaw_modPermit_setBrk rfl hs
  notes := fun _ _ hf _ hs => brakeLaw_modPermit (hf _).1 hs
  decrement := fun _ _ _ hs => brakeLaw_modPermit rfl hs
  creep := fun _ _ _ hs => hs
  axis := fun _ _ _ hs => hs
  sendAny := fun _ _ _ hs => hs
  segPort := fun _ _ _ hs => hs
  clPort := fun _ _ hs => hs
  timeout := fun _ _ hs => hs
  scrubPos := fun _ _ hs => hs

theorem brakeLaw_workClosed : WorkClosed BrakeLaw where
  toCycleClosed := brakeLaw_cycleClosed
  service := fun _ _ _ _ _ hs => brakeLaw_modPermit rfl hs
  clearCounters := brakeLaw_clearCounters
  enqueue := brakeLaw_enqueue
  removeStops := fun _ _ hs => hs
  filterQueue := fun _ _ hs => hs
  zones := fun _ _ hs => hs
  takeRequest := fun _ _ hs => hs
  startCheck := fun _ _ _ _ _ hs => hs
  stale := fun _ _ hs => hs
  pair := fun _ _ _ hs => hs
  waypoints := fun _ _ hs => hs
  inputs := fun _ _ hs => hs
  settings := fun _ _ _ hs => hs
  storeAxis := fun _ _ _ _ hs => hs
  storeGroup := fun _ _ _ _ hs => hs
  storePair := fun _ _ _ hs => hs
  storeExtent := fun _ _ _ hs => hs
  overtake := fun _ _ hs => hs
  shadow := fun _ _ _ _ hs => hs
  setPending := fun _ _ hs => hs
  loadIdle := fun _ _ hs => hs
  readPtr := fun _ _ hs => hs
  forward := fun _ _ _ hs => hs

theorem brakeLaw_stepClosed : StepClosed BrakeLaw where
  toWorkClosed := brakeLaw_workClosed
  resetBlock := fun b s hb _ hs => brakeLaw_resetBlock b s hb hs
  pinReset := fun _ _ _ => brakeLaw_of_reset rfl rfl
  popRequest := fun _ hs => hs
  pushReply := fun _ _ _ hs => hs
  queueRequest := brakeLaw_queueRequest
  pathSetpoint := brakeLaw_pathSetpoint
  pathSample := brakeLaw_pathSample
  pathEcho := brakeLaw_pathEcho
  popSetpoint := fun _ _ _ _ hs => hs
  popSample := fun _ _ _ _ _ hs => hs
  popEcho := fun _ _ _ _ _ hs => hs
  endSegment := fun _ _ hs => hs
  endCl := fun _ hs => hs
  pending := fun _ _ hs => hs
  cycle := fun _ hs => hs
  clock := fun _ _ hs => hs
  clockEnd := fun _ hs => hs
  beginReset := fun _ _ hs => hs
  resetStops := fun _ hs => hs
  doneReset := fun _ _ hs => hs

/-! ## From reset on -/

/-- Settles O55: the lines are released with every permit DISARMED at reset, and a step is made of primitive changes that
keep the law. -/
theorem brakeFollowsLive : Obligations.BrakeFollowsLive := by
  refine ⟨?reset, fun s t hs hstep => ?step⟩
  case reset => exact brakeLaw_of_reset rfl rfl
  case step => exact brakeLaw_stepClosed.step s t hstep hs

end Sys2Proof.Machine
end

section
/-! PROOF. CLEAR_COUNTERS: what it clears in each piece of state, and that it keeps every other. -/

namespace Sys2Proof.Machine

/-! ## The pieces of state with counters (R149) -/

theorem clearCounters_segPorts (s : State) (sg : SegIx) :
    s.clearCounters.segPorts[sg] = ⟨{ s.segPorts[sg].port with bad := 0 }, 0⟩ := by
  simp [State.clearCounters, State.clearPorts, Port.clearBad]

theorem clearCounters_axisRec (s : State) (a : AxisIx) :
    s.clearCounters.axisRec[a] = { s.axisRec[a] with lateCount := 0, clampCount := 0 } := by
  simp [State.clearCounters]

/-- Each record is rewritten by its own state alone: a TRIPPED group keeps its further-cause count. -/
theorem clearCounters_permits (s : State) (g : GroupIx) : s.clearCounters.permits[g] =
    if s.permitState g = .tripped then s.permits[g] else { s.permits[g] with further := 0 } := by
  have hrecord : s.clearCounters.permits[g] = s.permits[g].clearFurther := by simp [State.clearCounters]
  rw [hrecord]
  unfold Permit.clearFurther State.permitState
  split <;> rfl

/-- Outside the six pieces of state that hold counters nothing changes. -/
theorem clearCounters_frame (s : State) : s.clearCounters = { s with
    segPorts := s.clearCounters.segPorts, clPort := s.clearCounters.clPort, axisRec := s.clearCounters.axisRec
    tables := s.clearCounters.tables, permits := s.clearCounters.permits, cl := s.clearCounters.cl } := rfl

/-! ## The request and its answer -/

/-- Settles O51: the request is answered OK with the counters cleared in the state it left, whose pieces are those of the
state it came to. -/
theorem clearCountersClearsOnlyCounters : Obligations.ClearCountersClearsOnlyCounters := by
  intro s q hq
  obtain ⟨t, hexec, hanswer⟩ := exec_answered hq (by decide) (by decide)
  refine ⟨t, s.popRequest.clearCounters, hexec, hanswer, ?segPorts, ?clPort, ?axisRec, ?tables, ?permits, ?cl, ?frame⟩
  case segPorts => exact clearCounters_segPorts s.popRequest
  case clPort => rfl
  case axisRec => exact clearCounters_axisRec s.popRequest
  case tables => rfl
  case permits => exact clearCounters_permits s.popRequest
  case cl => rfl
  case frame => exact clearCounters_frame s.popRequest

end Sys2Proof.Machine
end

section
/-! PROOF. Laws about the tables alone: a law that only reads the table store is kept by a step when the changes of the
records keep it. -/

namespace Sys2Proof.Machine

/-- A law that reads nothing but the tables, and is kept by every change that a step makes in them. -/
structure TableLaw (P : State → Prop) : Prop where
  of_tables : ∀ {s t : State}, P s → t.tables = s.tables → P t
  corrected : ∀ e s, s.tables.outcome e = .single → P s → P (s.modTables (TableStore.noteCorrected e))
  poisoned : ∀ e s, s.tables.outcome e = .uncorrectable → P s → P (s.modTables (TableStore.notePoisoned e))
  scrubPos : ∀ k, Keeps P (State.modTables fun t => { t with scrubPos := k })
  clearErrors : Keeps P (State.modTables TableStore.clearErrors)
  storeAxis : ∀ (a : AxisIx) f s, s.axisWriteOk a f → P s →
    P (s.modTables fun t => { t with axes := t.axes.set a (.fresh f.stored) })
  storeGroup : ∀ (g : GroupIx) f s, s.groupWriteOk g f → P s → P (s.modTables fun t => { t with
    groups := t.groups.set g (.fresh f.stored)
    index := Vector.ofFn fun a => rewriteGroup g (f.stored.members.filterMap axisOfByte) a t.index[a] })
  storePair : ∀ (p : PairIx) f, Keeps P (State.modTables fun t => { t with
    pairs := t.pairs.set p (.fresh f.stored)
    index := Vector.ofFn fun a => rewritePair p f a t.index[a] })
  storeExtent : ∀ (x : ExtentIx) f, Keeps P (State.modTables fun t =>
    { t with extents := t.extents.set x (.fresh f) })
  reset : P State.reset

theorem closeCheck_tables (sg : SegIx) (s : State) : (s.closeCheck sg).tables = s.tables := by rw [closeCheck_eq]

theorem enqueue_tables (e : SetpointEntry) (s : State) : (s.enqueue e).tables = s.tables := by
  unfold State.enqueue
  split <;> rfl

theorem queueRequest_tables (r : Request) (s : State) : (s.queueRequest r).tables = s.tables := by
  unfold State.queueRequest
  split <;> rfl

theorem pathSetpoint_tables (f : SetpointFrame) (s : State) : (s.pathSetpoint f).tables = s.tables := by
  unfold State.pathSetpoint
  split <;> rfl

theorem pathSample_tables (sg : SegIx) (f : SampleFrame) (s : State) : (s.pathSample sg f).tables = s.tables := by
  unfold State.pathSample
  split <;> rfl

theorem pathEcho_tables (sg : SegIx) (f : EchoFrame) (s : State) : (s.pathEcho sg f).tables = s.tables := by
  unfold State.pathEcho
  split <;> rfl

section
variable {P : State → Prop} (h : TableLaw P)
include h

/-- Of the blocks' soft resets only the table store's touches the tables (R154). -/
theorem TableLaw.resetBlock (b : ResetBlock) (s : State) (hb : b ≠ .trip) (hs : P s) : P (s.resetBlock b) := by
  cases b with
  | tables => exact h.scrubPos 0 _ (h.clearErrors s hs)
  | trip => exact absurd rfl hb
  | port p => cases p <;> exact h.of_tables hs rfl
  | timer | monitor | admission | permit | zone | check | management | scheduler => exact h.of_tables hs rfl

theorem TableLaw.tripClosed : TripClosed P where
  corrected := h.corrected
  poisoned := h.poisoned
  close := fun sg s hs => h.of_tables hs (closeCheck_tables sg s)
  post := fun _ _ hs => h.of_tables hs rfl
  drop := fun _ _ hs => h.of_tables hs rfl
  stop := fun _ _ _ hs => h.of_tables hs rfl
  purge := fun _ _ hs => h.of_tables hs rfl
  creepEnd := fun _ _ _ _ _ hs => h.of_tables hs rfl
  record := fun _ _ _ _ hs => h.of_tables hs rfl
  send := fun _ _ hs => h.of_tables hs rfl
  toTripped := fun _ _ _ hs => h.of_tables hs rfl
  further := fun _ _ _ hs => h.of_tables hs rfl
  draw := fun _ hs => h.of_tables hs rfl

theorem TableLaw.cycleClosed : CycleClosed P where
  toTripClosed := h.tripClosed
  scrubPos := h.scrubPos
  sendCheck := sendCheck_keeps h.tripClosed (fun _ _ _ hs => h.of_tables hs rfl) (fun _ _ hs => h.of_tables hs rfl)
    (fun _ _ hs => h.of_tables hs rfl)
  transmit := fun _ _ _ hs => h.of_tables hs rfl
  unstop := fun _ _ _ hs => h.of_tables hs rfl
  unbeacon := fun _ _ hs => h.of_tables hs rfl
  dequeue := fun _ _ hs => h.of_tables hs rfl
  permit := fun _ _ _ _ _ _ hs => h.of_tables hs rfl
  notes := fun _ _ _ _ hs => h.of_tables hs rfl
  decrement := fun _ _ _ hs => h.of_tables hs rfl
  creep := fun _ _ _ hs => h.of_tables hs rfl
  axis := fun _ _ _ hs => h.of_tables hs rfl
  sendAny := fun _ _ _ hs => h.of_tables hs rfl
  segPort := fun _ _ _ hs => h.of_tables hs rfl
  clPort := fun _ _ hs => h.of_tables hs rfl
  timeout := fun _ _ hs => h.of_tables hs rfl

theorem TableLaw.workClosed : WorkClosed P where
  toCycleClosed := h.cycleClosed
  storeAxis := h.storeAxis
  storeGroup := h.storeGroup
  storePair := h.storePair
  storeExtent := h.storeExtent
  clearCounters := fun s hs => h.of_tables (h.clearErrors s hs) rfl
  enqueue := fun e s hs => h.of_tables hs (enqueue_tables e s)
  service := fun _ _ _ _ _ hs => h.of_tables hs rfl
  removeStops := fun _ _ hs => h.of_tables hs rfl
  filterQueue := fun _ _ hs => h.of_tables hs rfl
  zones := fun _ _ hs => h.of_tables hs rfl
  takeRequest := fun _ _ hs => h.of_tables hs rfl
  startCheck := fun _ _ _ _ _ hs => h.of_tables hs rfl
  stale := fun _ _ hs => h.of_tables hs rfl
  pair := fun _ _ _ hs => h.of_tables hs rfl
  waypoints := fun _ _ hs => h.of_tables hs rfl
  inputs := fun _ _ hs => h.of_tables hs rfl
  settings := fun _ _ _ hs => h.of_tables hs rfl
  overtake := fun _ _ hs => h.of_tables hs rfl
  shadow := fun _ _ _ _ hs => h.of_tables hs rfl
  setPending := fun _ _ hs => h.of_tables hs rfl
  loadIdle := fun _ _ hs => h.of_tables hs rfl
  readPtr := fun _ _ hs => h.of_tables hs rfl
  forward := fun _ _ _ hs => h.of_tables hs rfl

/-- A law of the tables is kept by every step. -/
theorem TableLaw.stepClosed : StepClosed P where
  toWorkClosed := h.workClosed
  resetBlock := fun b s hb _ hs => h.resetBlock b s hb hs
  pinReset := fun _ _ _ => h.of_tables h.reset rfl
  queueRequest := fun r s hs => h.of_tables hs (queueRequest_tables r s)
  pathSetpoint := fun f s hs => h.of_tables hs (pathSetpoint_tables f s)
  pathSample := fun sg f s hs => h.of_tables hs (pathSample_tables sg f s)
  pathEcho := fun sg f s hs => h.of_tables hs (pathEcho_tables sg f s)
  popRequest := fun _ hs => h.of_tables hs rfl
  pushReply := fun _ _ _ hs => h.of_tables hs rfl
  popSetpoint := fun _ _ _ _ hs => h.of_tables hs rfl
  popSample := fun _ _ _ _ _ hs => h.of_tables hs rfl
  popEcho := fun _ _ _ _ _ hs => h.of_tables hs rfl
  endSegment := fun _ _ hs => h.of_tables hs rfl
  endCl := fun _ hs => h.of_tables hs rfl
  pending := fun _ _ hs => h.of_tables hs rfl
  cycle := fun _ hs => h.of_tables hs rfl
  clock := fun _ _ hs => h.of_tables hs rfl
  clockEnd := fun _ hs => h.of_tables hs rfl
  beginReset := fun _ _ hs => h.of_tables hs rfl
  resetStops := fun _ hs => h.of_tables hs rfl
  doneReset := fun _ _ hs => h.of_tables hs rfl

end

end Sys2Proof.Machine
end

section
/-! PROOF. The laws of the table store: what a record was written with outlives corrections and poisonings, and an
accepted write has passed the tests that keep each law. -/

namespace Sys2Proof.Machine

/-! ## What a record was written with -/

/-- The later record holds, while it is good, what the earlier one was written with (R139, R140). -/
def Stored.Later {F : Type} (r r' : Stored F) : Prop := r'.good → r.good ∧ r'.intended = r.intended

theorem Stored.Later.refl {F : Type} (r : Stored F) : r.Later r := fun h => ⟨h, rfl⟩

theorem Stored.later_correct {F : Type} (r : Stored F) : r.Later r.correct := by
  obtain ⟨f, c, p⟩ := r
  cases c with
  | single g => exact fun h => ⟨⟨h.1, by simp⟩, rfl⟩
  | lasting g => exact fun h => ⟨h, rfl⟩
  | clean => exact Stored.Later.refl _
  | uncorrectable => exact Stored.Later.refl _

theorem Stored.later_poison {F : Type} (r : Stored F) : r.Later r.poison := fun h => absurd h.1 (by simp [Stored.poison])

theorem Stored.fresh_intended {F : Type} (f : F) : (Stored.fresh f).intended = f := rfl

/-- A record that has been read and is good holds what it was written with. -/
theorem Stored.settled.held_eq {F : Type} {r : Stored F} (h : r.settled) (hg : r.good) : r.held = r.intended := by
  obtain h | h | h := h
  · exact absurd hg.1 (by simp [h])
  · simp [Stored.intended, h]
  · simp [Stored.intended, h]

/-- One record of a vector changes to a later one. -/
theorem later_upd {F : Type} {n : Nat} (v : Vector (Stored F) n) (i j : Fin n) {f : Stored F → Stored F}
    (hf : ∀ r : Stored F, r.Later (f r)) : v[j].Later (upd v i f)[j] := by
  rw [upd_get]
  split
  · next h => exact h ▸ hf _
  · exact Stored.Later.refl _

/-- Every axis and group record is later, and every axis is in the group it was in. -/
structure TableStore.Later (t t' : TableStore) : Prop where
  axes : ∀ a : AxisIx, t.axes[a].Later t'.axes[a]
  groups : ∀ g : GroupIx, t.groups[g].Later t'.groups[g]
  group : ∀ a : AxisIx, t'.index[a].group = t.index[a].group

theorem TableStore.later_of_eq {t t' : TableStore} (ha : t'.axes = t.axes) (hg : t'.groups = t.groups)
    (hi : t'.index = t.index) : t.Later t' where
  axes a := by rw [ha]; exact Stored.Later.refl _
  groups g := by rw [hg]; exact Stored.Later.refl _
  group a := by rw [hi]

theorem TableStore.later_noteCorrected (e : EntryRef) (t : TableStore) : t.Later (t.noteCorrected e) where
  axes a := by
    cases e with
    | axis b => exact later_upd t.axes b a Stored.later_correct
    | group | pair | extent => exact Stored.Later.refl _
  groups g := by
    cases e with
    | group h => exact later_upd t.groups h g Stored.later_correct
    | axis | pair | extent => exact Stored.Later.refl _
  group a := by rw [TableStore.noteCorrected_index]

theorem TableStore.later_notePoisoned (e : EntryRef) (t : TableStore) : t.Later (t.notePoisoned e) where
  axes a := by
    cases e with
    | axis b => exact later_upd t.axes b a Stored.later_poison
    | group | pair | extent => exact Stored.Later.refl _
  groups g := by
    cases e with
    | group h => exact later_upd t.groups h g Stored.later_poison
    | axis | pair | extent => exact Stored.Later.refl _
  group a := by rw [TableStore.notePoisoned_index]

/-- The index keeps every axis's group at a pair write (R15). -/
theorem rewritePair_group (p : PairIx) (f : PairFields) (a : AxisIx) (m : Membership) :
    (rewritePair p f a m).group = m.group := by
  unfold rewritePair
  repeat' split
  all_goals rfl

/-- A law about what the good axis and group records were written with, and the groups of the index. -/
structure WrittenLaw (P : State → Prop) : Prop where
  later : ∀ {s t : State}, P s → s.tables.Later t.tables → P t
  storeAxis : ∀ (a : AxisIx) f s, s.axisWriteOk a f → P s →
    P (s.modTables fun t => { t with axes := t.axes.set a (.fresh f.stored) })
  storeGroup : ∀ (g : GroupIx) f s, s.groupWriteOk g f → P s → P (s.modTables fun t => { t with
    groups := t.groups.set g (.fresh f.stored)
    index := Vector.ofFn fun a => rewriteGroup g (f.stored.members.filterMap axisOfByte) a t.index[a] })
  reset : P State.reset

theorem WrittenLaw.tableLaw {P : State → Prop} (h : WrittenLaw P) : TableLaw P where
  of_tables := fun hs ht => h.later hs (by rw [ht]; exact TableStore.later_of_eq rfl rfl rfl)
  corrected := fun e s _ hs => h.later hs (TableStore.later_noteCorrected e s.tables)
  poisoned := fun e s _ hs => h.later hs (TableStore.later_notePoisoned e s.tables)
  scrubPos := fun _ _ hs => h.later hs (TableStore.later_of_eq rfl rfl rfl)
  clearErrors := fun _ hs => h.later hs (TableStore.later_of_eq rfl rfl rfl)
  storeAxis := h.storeAxis
  storeGroup := h.storeGroup
  storePair := fun p f s hs => h.later hs
    ⟨fun _ => Stored.Later.refl _, fun _ => Stored.Later.refl _, fun a => by simp [rewritePair_group]⟩
  storeExtent := fun _ _ _ hs => h.later hs (TableStore.later_of_eq rfl rfl rfl)
  reset := h.reset

/-! ## Soundness -/

/-- Records that are as they were, or just stored, show no new error. -/
theorem Sound.of_records {s t : State} (h : s.Sound)
    (ha : ∀ a : AxisIx, t.tables.axes[a] = s.tables.axes[a] ∨ t.tables.axes[a].outcome = .clean)
    (hg : ∀ g : GroupIx, t.tables.groups[g] = s.tables.groups[g] ∨ t.tables.groups[g].outcome = .clean)
    (hp : ∀ p : PairIx, t.tables.pairs[p] = s.tables.pairs[p] ∨ t.tables.pairs[p].outcome = .clean)
    (hx : ∀ x : ExtentIx, t.tables.extents[x] = s.tables.extents[x] ∨ t.tables.extents[x].outcome = .clean) :
    t.Sound := by
  have hrecord : ∀ {F : Type} {r r' : Stored F}, r.outcome = .clean ∨ r.outcome = .already →
      r' = r ∨ r'.outcome = .clean → r'.outcome = .clean ∨ r'.outcome = .already := by
    rintro F r r' hr (rfl | hc)
    · exact hr
    · exact .inl hc
  intro e
  cases e with
  | axis a => exact hrecord (h (.axis a)) (ha a)
  | group g => exact hrecord (h (.group g)) (hg g)
  | pair p => exact hrecord (h (.pair p)) (hp p)
  | extent x => exact hrecord (h (.extent x)) (hx x)

/-- A record set in a vector is fresh, and the others are as they were. -/
theorem set_fresh_outcome {F : Type} {n : Nat} (v : Vector (Stored F) n) (i j : Fin n) (f : F) :
    (v.set i (.fresh f))[j] = v[j] ∨ (v.set i (Stored.fresh f))[j].outcome = .clean := by
  rw [set_get]
  split
  · exact .inr rfl
  · exact .inl rfl

/-- No step makes an error: a read acts on none, and a write stores fresh check bits (log 10). -/
theorem sound_tableLaw : TableLaw State.Sound where
  of_tables := Sound.of_tables
  corrected := fun e s he hs => by rcases hs e with h | h <;> rw [h] at he <;> cases he
  poisoned := fun e s he hs => by rcases hs e with h | h <;> rw [h] at he <;> cases he
  scrubPos := fun _ _ hs => Sound.of_records hs (fun _ => .inl rfl) (fun _ => .inl rfl) (fun _ => .inl rfl) (fun _ => .inl rfl)
  clearErrors := fun _ hs => Sound.of_records hs (fun _ => .inl rfl) (fun _ => .inl rfl) (fun _ => .inl rfl) (fun _ => .inl rfl)
  storeAxis := fun a f s _ hs => Sound.of_records hs (fun b => set_fresh_outcome s.tables.axes a b _) (fun _ => .inl rfl)
    (fun _ => .inl rfl) (fun _ => .inl rfl)
  storeGroup := fun g f s _ hs => Sound.of_records hs (fun _ => .inl rfl) (fun k => set_fresh_outcome s.tables.groups g k _)
    (fun _ => .inl rfl) (fun _ => .inl rfl)
  storePair := fun p f s hs => Sound.of_records hs (fun _ => .inl rfl) (fun _ => .inl rfl)
    (fun k => set_fresh_outcome s.tables.pairs p k _) (fun _ => .inl rfl)
  storeExtent := fun x f s hs => Sound.of_records hs (fun _ => .inl rfl) (fun _ => .inl rfl) (fun _ => .inl rfl)
    (fun k => set_fresh_outcome s.tables.extents x k _)
  reset := reset_sound

/-! ## Stations -/

/-- The good records of one table after a write: the one just stored, and the others as they were. -/
theorem set_fresh_intended {F : Type} {n : Nat} (v : Vector (Stored F) n) (i j : Fin n) (f : F) :
    (v.set i (Stored.fresh f))[j].intended = if i = j then f else v[j].intended := by
  rw [set_get]
  split <;> rfl

theorem set_fresh_good {F : Type} {n : Nat} (v : Vector (Stored F) n) {i j : Fin n} (hij : i ≠ j) (f : F) :
    (v.set i (Stored.fresh f))[j].good ↔ v[j].good := by rw [set_get, if_neg hij]

theorem reset_axes (a : AxisIx) : State.reset.tables.axes[a] = .fresh AxisFields.default := by
  simp [State.reset, TableStore.reset]

theorem reset_groups (g : GroupIx) : State.reset.tables.groups[g] = .fresh GroupFields.default := by
  simp [State.reset, TableStore.reset]

theorem reset_groupOf (a : AxisIx) : State.reset.groupOf a = none := by
  simp [State.groupOf, State.reset, TableStore.reset]

/-- Another valid entry that has been read does not hold the station of a write that passed step 6 (R7). -/
theorem station_free {s : State} {a b : AxisIx} {f : AxisFields} (htaken : s.stationTaken a f = false)
    (hread : s.othersRead a) (hab : b ≠ a) (hg : s.tables.axes[b].good) (hv : s.tables.axes[b].intended.valid = true) :
    ¬(s.tables.axes[b].intended.segment = f.segment ∧ s.tables.axes[b].intended.station = f.station) := by
  rw [← (hread b hab).held_eq hg] at hv ⊢
  rintro ⟨hsg, hst⟩
  have htrue : s.stationTaken a f = true := by
    unfold State.stationTaken
    rw [List.any_eq_true]
    refine ⟨b, List.mem_finRange b, ?_⟩
    simp only [Bool.and_eq_true, bne_iff_ne, beq_iff_eq]
    exact ⟨⟨⟨hab, hv⟩, hsg⟩, hst⟩
  rw [htaken] at htrue
  cases htrue

theorem stored_of_valid {f : AxisFields} (h : f.stored.valid = true) : f.valid = true ∧ f.stored = f := by
  unfold AxisFields.stored at h ⊢
  split at h
  · next hv => exact ⟨hv, if_pos hv⟩
  · cases h

/-- R3: a write is tested against every other valid entry, read before the test. -/
theorem stationLaw_writtenLaw : WrittenLaw StationLaw where
  later := fun hs ht a b hab ga gb va vb => by
    obtain ⟨ga, ia⟩ := ht.axes a ga
    obtain ⟨gb, ib⟩ := ht.axes b gb
    rw [ia] at va ⊢
    rw [ib] at vb ⊢
    exact hs a b hab ga gb va vb
  storeAxis := fun a f s hok hs b c hbc gb gc vb vc => by
    simp only [State.modTables_tables, set_fresh_intended] at vb vc ⊢
    have hnew : f.stored.valid = true → ∀ d : AxisIx, d ≠ a → s.tables.axes[d].good →
        s.tables.axes[d].intended.valid = true → ¬(s.tables.axes[d].intended.segment = f.stored.segment ∧
          s.tables.axes[d].intended.station = f.stored.station) := by
      intro hv d hda gd vd
      obtain ⟨hv, he⟩ := stored_of_valid hv
      obtain ⟨-, htaken, hread⟩ := hok.2 hv
      rw [he]
      exact station_free htaken hread hda gd vd
    by_cases hb : a = b
    · have hc : a ≠ c := fun h => hbc (hb ▸ h)
      simp only [if_pos hb, if_neg hc] at vb vc ⊢
      rintro ⟨h1, h2⟩
      exact hnew vb c (Ne.symm hc) ((set_fresh_good s.tables.axes hc _).mp gc) vc ⟨h1.symm, h2.symm⟩
    · by_cases hc : a = c
      · simp only [if_neg hb, if_pos hc] at vb vc ⊢
        exact hnew vc b (Ne.symm hb) ((set_fresh_good s.tables.axes hb _).mp gb) vb
      · simp only [if_neg hb, if_neg hc] at vb vc ⊢
        exact hs b c hbc ((set_fresh_good s.tables.axes hb _).mp gb) ((set_fresh_good s.tables.axes hc _).mp gc) vb vc
  storeGroup := fun g f s _ hs => hs
  reset := fun a b _ _ _ va _ => by
    rw [reset_axes] at va
    cases va

/-! ## The membership index -/

theorem axisOfByte_natByte (a : AxisIx) : axisOfByte (natByte a) = some a := ixOfByte_natByte (by decide) a

theorem natByte_of_ixOfByte {n : Nat} {b : Byte} {i : Fin n} (h : ixOfByte n b = some i) : b = natByte i := by
  unfold ixOfByte at h
  split at h
  · cases h
    simp [natByte]
  · cases h

/-- The axes that a member list names. -/
theorem mem_axesOf (l : List Byte) (a : AxisIx) : a ∈ l.filterMap axisOfByte ↔ natByte a ∈ l := by
  rw [List.mem_filterMap]
  constructor
  · rintro ⟨b, hb, h⟩
    exact natByte_of_ixOfByte h ▸ hb
  · exact fun h => ⟨_, h, axisOfByte_natByte a⟩

/-- The group of an axis after a group write (R12). -/
theorem rewriteGroup_group (g : GroupIx) (l : List AxisIx) (a : AxisIx) (m : Membership) :
    (rewriteGroup g l a m).group = if a ∈ l then some g else if m.group = some g then none else m.group := by
  unfold rewriteGroup
  simp only [List.contains_iff_mem]
  repeat' split
  all_goals rfl

theorem storeGroup_groupOf (s : State) (g : GroupIx) (f : GroupFields) (a : AxisIx) : (s.storeGroup g f).groupOf a =
    if natByte a ∈ f.stored.members then some g else if s.groupOf a = some g then none else s.groupOf a := by
  unfold State.storeGroup State.groupOf
  simp only [State.modCreep_tables, State.modTables_tables, Fin.getElem_fin, Vector.getElem_ofFn, rewriteGroup_group,
    mem_axesOf]

theorem GroupFields.stored_of_valid {f : GroupFields} (h : f.valid = true) : f.stored = f := if_pos h

theorem GroupFields.stored_of_invalid {f : GroupFields} (h : f.valid = false) : f.stored = .default :=
  if_neg (by simp [h])

/-- R4, R12: the index follows each accepted member list, whose axes were in no other group and valid (R11). -/
theorem indexLaw_writtenLaw : WrittenLaw IndexLaw where
  later := fun {s t} hs ht => by
    have hgroup : ∀ a, t.groupOf a = s.groupOf a := ht.group
    refine ⟨fun g gg a => ?_, fun a ha ga => ?_⟩
    · obtain ⟨gg, ig⟩ := ht.groups g gg
      rw [ig, hgroup]
      exact hs.1 g gg a
    · obtain ⟨ga, ia⟩ := ht.axes a ga
      rw [ia]
      exact hs.2 a (hgroup a ▸ ha) ga
  storeAxis := fun a f s hok hs => by
    refine ⟨hs.1, fun b hb gb => ?_⟩
    simp only [State.modTables_tables, set_fresh_intended]
    split
    · next hab =>
      subst hab
      cases hv : f.valid with
      | true => simp [AxisFields.stored, hv]
      | false =>
        have hb : (s.groupOf a).isSome = true := hb
        rw [hok.1 hv] at hb
        cases hb
    · next hab => exact hs.2 b hb ((set_fresh_good s.tables.axes hab _).mp gb)
  storeGroup := fun g f s hok hs => by
    have hfree : ∀ a : AxisIx, natByte a ∈ f.stored.members → s.groupOf a = none ∨ s.groupOf a = some g := by
      intro a ha
      cases hv : f.valid with
      | true =>
        rw [GroupFields.stored_of_valid hv] at ha
        exact (hok hv).2.2.2 a ((mem_axesOf _ _).mpr ha)
      | false =>
        rw [GroupFields.stored_of_invalid hv] at ha
        cases ha
    refine ⟨fun k gk a => ?_, fun a ha ga => ?_⟩
    · change natByte a ∈ (s.tables.groups.set g (Stored.fresh f.stored))[k].intended.members ↔
        (s.storeGroup g f).groupOf a = some k
      rw [set_fresh_intended, storeGroup_groupOf]
      by_cases hgk : g = k
      · subst hgk
        simp only [if_true]
        split
        · simp_all
        · split <;> simp_all
      · have hk : natByte a ∈ s.tables.groups[k].intended.members ↔ s.groupOf a = some k :=
          hs.1 k ((set_fresh_good s.tables.groups hgk _).mp gk) a
        rw [if_neg hgk, hk]
        split
        · next hm => rcases hfree a hm with h | h <;> simp [h, hgk]
        · split
          · next h => simp [h, hgk]
          · rfl
    · change s.tables.axes[a].intended.valid = true
      change s.tables.axes[a].good at ga
      change ((s.storeGroup g f).groupOf a).isSome = true at ha
      rw [storeGroup_groupOf] at ha
      split at ha
      · next hm =>
        cases hv : f.valid with
        | true =>
          rw [GroupFields.stored_of_valid hv] at hm
          obtain ⟨hread, husable⟩ := (hok hv).2.1 a ((mem_axesOf _ _).mpr hm)
          rw [← hread.held_eq ga]
          exact (Bool.and_eq_true _ _ ▸ husable).1
        | false =>
          rw [GroupFields.stored_of_invalid hv] at hm
          cases hm
      · split at ha
        · cases ha
        · exact hs.2 a ha ga
  reset := by
    refine ⟨fun g _ a => ?_, fun a ha _ => ?_⟩
    · rw [reset_groups, reset_groupOf]
      simp [Stored.fresh_intended, GroupFields.default]
    · rw [reset_groupOf] at ha
      cases ha

/-! ## Ranges -/

/-- R9, R11: a group entry is stored valid only in its ranges. -/
theorem rangeLaw_writtenLaw : WrittenLaw RangeLaw where
  later := fun hs ht g gg vg => by
    obtain ⟨gg, ig⟩ := ht.groups g gg
    rw [ig] at vg ⊢
    exact hs g gg vg
  storeAxis := fun _ _ _ _ hs => hs
  storeGroup := fun g f s hok hs k gk vk => by
    simp only [State.modTables_tables, set_fresh_intended] at vk ⊢
    split
    · next hgk =>
      subst hgk
      rw [if_pos rfl] at vk
      cases hv : f.valid with
      | true =>
        rw [GroupFields.stored_of_valid hv]
        exact (hok hv).1
      | false =>
        rw [GroupFields.stored_of_invalid hv] at vk
        cases vk
    · next hgk =>
      rw [if_neg hgk] at vk
      exact hs k ((set_fresh_good s.tables.groups hgk _).mp gk) vk
  reset := fun g _ vg => by
    rw [reset_groups] at vg
    cases vg

/-- R1, R7: an axis entry is stored valid only in its ranges, and not valid only with the default contents. -/
theorem axisRangeLaw_writtenLaw : WrittenLaw AxisRangeLaw where
  later := fun hs ht a ga => by
    obtain ⟨ga, ia⟩ := ht.axes a ga
    rw [ia]
    exact hs a ga
  storeAxis := fun a f s hok hs b gb => by
    simp only [State.modTables_tables, set_fresh_intended]
    split
    · cases hv : f.valid with
      | true => simp [AxisFields.stored, hv, (hok.2 hv).1]
      | false => simp [AxisFields.stored, hv, AxisFields.default]
    · next hab => exact hs b ((set_fresh_good s.tables.axes hab _).mp gb)
  storeGroup := fun _ _ _ _ hs => hs
  reset := fun a _ => by
    rw [reset_axes]
    exact ⟨fun h => (by cases h), fun _ => rfl⟩

/-- Settles O58: the laws read the tables alone, and every change of a record that a step makes keeps them. -/
theorem tablesStayConsistent : Obligations.TablesStayConsistent := by
  refine ⟨fun s t hs hstep => ?sound, fun s t hs hstep => ?station, fun s t hs hstep => ?index⟩
  case sound => exact sound_tableLaw.stepClosed.step s t hstep hs
  case station => exact stationLaw_writtenLaw.tableLaw.stepClosed.step s t hstep hs
  case index => exact indexLaw_writtenLaw.tableLaw.stepClosed.step s t hstep hs

end Sys2Proof.Machine
end

section
/-! PROOF. Laws about the permits, the timer, the schedule and the queues, each of which reads a few pieces of state: what
every change of a step does to those pieces, said once. -/

namespace Sys2Proof.Machine

/-! ## The CL side -/

/-- What reports, selections and loads do to the CL side: replies and forwarded samples only leave, the report queue stays
in its capacity, and the live table changes only to the shadow table of a pending load (R152, R155, R158). -/
structure ClSide.Calmer (c c' : ClSide) : Prop where
  replies : c'.replies.Sublist c.replies
  reports : c.reports.length ≤ 32 → c'.reports.length ≤ 32
  forward : ∀ n : SegIx, c'.forward[n].Sublist c.forward[n]
  shadow : c'.schedule.shadow = c.schedule.shadow
  live : c'.schedule.live = c.schedule.live ∨ c.schedule.loadPending = true ∧ c'.schedule.live = c.schedule.shadow
  pending : c'.schedule.loadPending = true → c.schedule.loadPending = true

theorem ClSide.Calmer.refl (c : ClSide) : c.Calmer c where
  replies := .refl _
  reports := id
  forward _ := .refl _
  shadow := rfl
  live := .inl rfl
  pending := id

theorem ClSide.Calmer.trans {c d e : ClSide} (h : c.Calmer d) (k : d.Calmer e) : c.Calmer e where
  replies := k.replies.trans h.replies
  reports := fun hc => k.reports (h.reports hc)
  forward n := (k.forward n).trans (h.forward n)
  shadow := k.shadow.trans h.shadow
  live := by
    obtain hk | ⟨hp, hk⟩ := k.live
    · rw [hk]
      exact h.live
    · exact .inr ⟨h.pending hp, by rw [hk, h.shadow]⟩
  pending := fun hp => h.pending (k.pending hp)

theorem length_concat_le {α : Type} {l : List α} {x : α} {n : Nat} (h : l.length < n) : (l ++ [x]).length ≤ n := by
  rw [List.length_append]
  exact h

theorem bumpNewest_length (l : List Report) : (bumpNewest l).length = l.length := by
  induction l using bumpNewest.induct with
  | case1 => rfl
  | case2 r => rfl
  | case3 r rs hrs ih =>
    rw [bumpNewest]
    · simp [ih]
    · exact hrs

/-- A queue that holds another than TRIP loses one entry to a TRIP (R152). -/
theorem dropNewestOther_length {l : List Report} (h : l.any (fun r => !r.isTrip) = true) :
    (dropNewestOther l).length = l.length - 1 := by
  obtain ⟨r, hr, ht⟩ := List.any_eq_true.mp h
  unfold dropNewestOther
  rw [List.length_reverse, List.length_eraseP_of_mem (List.mem_reverse.mpr hr) ht, List.length_reverse]

theorem ClSide.calmer_queueReport (ctx : PostContext) (b : ReportBody) (c : ClSide) : c.Calmer (c.queueReport ctx b) := by
  unfold ClSide.queueReport ClSide.placeReport
  split
  · split
    · next hlt =>
      exact { ClSide.Calmer.refl c with reports := fun _ => length_concat_le hlt }
    · split
      · next hfull hany =>
        refine { ClSide.Calmer.refl c with reports := fun h => ?_ }
        have hother := (Bool.and_eq_true _ _ ▸ hany).2
        have hpos : 0 < c.reports.length := Nat.lt_of_lt_of_le (by decide) (Nat.le_of_not_lt hfull)
        simp only [List.length_append, bumpNewest_length, dropNewestOther_length hother, List.length_singleton]
        omega
      · exact { ClSide.Calmer.refl c with reports := fun h => (bumpNewest_length _).trans_le h }
  · exact ClSide.Calmer.refl c

theorem ClSide.calmer_takeFrom (c : ClSide) (src : Source) : c.Calmer (c.takeFrom src) := by
  cases src with
  | reply =>
    simp only [ClSide.takeFrom]
    split
    · next hr => exact { ClSide.Calmer.refl c with replies := hr ▸ List.sublist_cons_self _ _ }
    · exact ClSide.Calmer.refl c
  | report =>
    simp only [ClSide.takeFrom]
    split
    · next hr =>
      exact { ClSide.Calmer.refl c with
        reports := fun h => Nat.le_trans (Nat.le_succ _) (by rw [hr] at h; exact h) }
    · exact ClSide.Calmer.refl c
  | seg n =>
    simp only [ClSide.takeFrom]
    split
    · next hr =>
      refine { ClSide.Calmer.refl c with forward := fun m => ?_ }
      simp only [set_get]
      split
      · next hm => exact hm ▸ hr ▸ List.sublist_cons_self _ _
      · exact .refl _
    · exact ClSide.Calmer.refl c

theorem ClSide.calmer_takePhase (c : ClSide) (k : Fin 32) : c.Calmer (c.takePhase k) :=
  (c.calmer_takeFrom c.schedule.live[k]).trans { ClSide.Calmer.refl _ with }

theorem ClSide.calmer_takeFound (c : ClSide) (k : Option (Fin 32)) : c.Calmer (c.takeFound k) := by
  cases k with
  | some k => exact c.calmer_takePhase k
  | none => exact ClSide.Calmer.refl c

/-- A load needs a load pending (R158). -/
theorem ClSide.calmer_load (ctx : PostContext) (way : LoadWay) (c : ClSide) (h : c.schedule.loadPending = true) :
    c.Calmer (c.load ctx way) :=
  ClSide.Calmer.trans (d := { c with schedule := { c.schedule with live := c.schedule.shadow, loadPending := false } })
    { ClSide.Calmer.refl c with live := .inr ⟨h, rfl⟩, pending := fun _ => h } (ClSide.calmer_queueReport _ _ _)

theorem ClSide.calmer_select (ctx : PostContext) (c : ClSide) : c.Calmer (c.select ctx) := by
  unfold ClSide.select
  split
  · next h => exact (c.calmer_load ctx _ (Bool.and_eq_true _ _ ▸ h).2).trans (ClSide.calmer_takeFound _ _)
  · split
    · exact c.calmer_takePhase _
    · split
      · next h => exact (c.calmer_load ctx _ h).trans (ClSide.calmer_takeFound _ _)
      · exact c.calmer_takeFound _

theorem ClSide.calmer_kick (ctx : PostContext) (c : ClSide) : c.Calmer (c.kick ctx) := by
  unfold ClSide.kick
  split
  · exact c.calmer_select ctx
  · exact ClSide.Calmer.refl c

theorem ClSide.calmer_post (ctx : PostContext) (b : ReportBody) (c : ClSide) : c.Calmer (c.post ctx b) :=
  (c.calmer_queueReport ctx b).trans (ClSide.calmer_kick ctx _)

theorem ClSide.calmer_loadIdle (ctx : PostContext) (c : ClSide) (h : c.schedule.loadPending = true) :
    c.Calmer (c.loadIdle ctx) :=
  ClSide.Calmer.trans (d := { c with schedule := { c.schedule with pointer := 0 } }) { ClSide.Calmer.refl c with }
    (ClSide.Calmer.trans (ClSide.calmer_load ctx .idle { c with schedule := { c.schedule with pointer := 0 } } h)
      (ClSide.calmer_kick ctx _))

theorem ClSide.calmer_endTransmission (ctx : PostContext) (c : ClSide) : c.Calmer (c.endTransmission ctx) := by
  refine ClSide.Calmer.trans (d := { c with tx := none }) { ClSide.Calmer.refl c with } ?_
  unfold ClSide.endTransmission
  simp only
  split
  · exact ClSide.calmer_select ctx _
  · split
    · next h => exact ClSide.calmer_loadIdle ctx _ h
    · exact ClSide.Calmer.refl _

/-- The CL side without an axis's forwarded samples. -/
theorem ClSide.calmer_dropAxis (c : ClSide) (a : AxisIx) :
    c.Calmer { c with forward := c.forward.map (·.filter fun e => e.axis != a) } :=
  { ClSide.Calmer.refl c with forward := fun n => by simp }

/-! ## Laws that read a few pieces of state -/

/-- A permit record in the terms of LapseLaw. -/
def Permit.Lawful (p : Permit) : Prop :=
  (p.state = .disarmed ∨ p.state = .tripped → p.lapse = 0) ∧ (p.state ≠ .live → p.halfDone = false)

/-- The settings and the timer in the terms of TimerLaw. -/
def TimerOk (f : Settings) (t : Timer) : Prop :=
  f.inRange = true ∧ 500 ≤ t.period.toNat ∧ t.period.toNat ≤ 20000 ∧ t.phase.toNat < t.period.toNat

/-- No path holds more than its capacity (R162). -/
def Paths.Within (p : Paths) : Prop :=
  p.setpoint.length ≤ 8 ∧ ∀ sg : SegIx, p.sample[sg].length ≤ 8 ∧ p.echo[sg].length ≤ 8

/-- The pieces of state that the laws of this part read are as they were. -/
structure SameParts (s t : State) : Prop where
  timer : t.timer = s.timer := by rfl
  settings : t.settings = s.settings := by rfl
  permits : t.permits = s.permits := by rfl
  setpoints : t.egress.setpoints = s.egress.setpoints := by rfl
  stopSet : t.egress.stopSet = s.egress.stopSet := by rfl
  paths : t.paths = s.paths := by rfl
  requests : t.requests = s.requests := by rfl
  cl : t.cl = s.cl := by rfl

/-- A law that every change of these pieces keeps; a piece that the law does not read needs no proof. -/
structure PartLaw (P : State → Prop) : Prop where
  others : ∀ {s t : State}, P s → SameParts s t → P t
  calmer : ∀ {s : State} {c : ClSide}, P s → s.cl.Calmer c → P { s with cl := c } := by exact fun hs _ => hs
  addReply : ∀ r s, s.cl.replies.length < 8 → P s → P { s with cl := { s.cl with replies := s.cl.replies ++ [r] } } := by
    exact fun _ _ _ hs => hs
  addForward : ∀ (sg : SegIx) e, Keeps P fun s =>
    { s with cl := { s.cl with forward := upd s.cl.forward sg (placeForward e) } } := by exact fun _ _ _ hs => hs
  shadow : ∀ t s, s.cl.schedule.loadPending = false → P s → P
    { s with cl := { s.cl with schedule := { s.cl.schedule with shadow := t } } } := by exact fun _ _ _ hs => hs
  setPending : ∀ s, missingSource s.cl.schedule.shadow = none → P s → P { s with cl := s.cl.setPending } := by
    exact fun _ _ hs => hs
  permits : ∀ {s : State} {v : Vector Permit 8}, P s → (∀ g : GroupIx, s.permits[g].Lawful → v[g].Lawful) →
    P { s with permits := v } := by exact fun hs _ => hs
  timer : ∀ {s : State} {f : Settings} {t : Timer}, P s → (TimerOk s.settings s.timer → TimerOk f t) →
    P { s with timer := t, settings := f } := by exact fun hs _ => hs
  fewerSetpoints : ∀ {s : State} {v : Vector (List SetpointEntry) 4}, P s →
    (∀ sg : SegIx, v[sg].Sublist s.egress.setpoints[sg]) → P { s with egress := { s.egress with setpoints := v } } := by
    exact fun hs _ => hs
  addSetpoint : ∀ (sg : SegIx) e, Keeps P (State.modEgress fun q =>
    { q with setpoints := upd q.setpoints sg (placeSetpoint e) }) := by exact fun _ _ _ hs => hs
  fewerStops : ∀ {s : State} {v : Vector (List AxisIx) 4}, P s →
    (∀ sg : SegIx, v[sg].Sublist s.egress.stopSet[sg]) → P { s with egress := { s.egress with stopSet := v } } := by
    exact fun hs _ => hs
  addStop : ∀ (sg : SegIx) a, Keeps P (State.modEgress fun e => { e with stopSet := upd e.stopSet sg (insertAxis a) }) := by
    exact fun _ _ _ hs => hs
  paths : ∀ {s : State} {p : Paths}, P s → (s.paths.Within → p.Within) → P { s with paths := p } := by exact fun hs _ => hs
  requests : ∀ {s : State} {l : List Request}, P s → (s.requests.length ≤ 8 → l.length ≤ 8) →
    P { s with requests := l } := by exact fun hs _ => hs
  reset : P State.reset

theorem Permit.Lawful.of_notes {p q : Permit} (h : p.Lawful) (hq : q.state = p.state ∧ q.lapse = p.lapse ∧
    q.halfDone = p.halfDone) : q.Lawful := by
  obtain ⟨hs, hl, hh⟩ := hq
  rw [Permit.Lawful, hs, hl, hh]
  exact h

/-- A PRIMED or LIVE permit has only its half-done mark to answer for. -/
theorem Permit.lawful_armed {p : Permit} (hp : p.state = .primed ∨ p.state = .live)
    (hh : p.state ≠ .live → p.halfDone = false) : p.Lawful :=
  ⟨fun hst => by rcases hp with hp | hp <;> rw [hp] at hst <;> simp at hst, hh⟩

theorem lawful_upd {v : Vector Permit 8} {g : GroupIx} {f : Permit → Permit} (hf : v[g].Lawful → (f v[g]).Lawful)
    (k : GroupIx) (hk : v[k].Lawful) : (upd v g f)[k].Lawful := by
  rw [upd_get]
  split
  · next h => exact hf (h ▸ hk)
  · exact hk

theorem Permit.lawful_reset : Permit.reset.Lawful := ⟨fun _ => rfl, fun _ => rfl⟩

/-- An element of a vector of lists loses entries. -/
theorem upd_sublist {α : Type} {n : Nat} {v : Vector (List α) n} {i : Fin n} {f : List α → List α}
    (hf : (f v[i]).Sublist v[i]) (j : Fin n) : (upd v i f)[j].Sublist v[j] := by
  rw [upd_get]
  split
  · next h => exact h ▸ hf
  · exact .refl _

theorem map_filter_sublist {α : Type} {n : Nat} (v : Vector (List α) n) (q : α → Bool) (j : Fin n) :
    (v.map (List.filter q))[j].Sublist v[j] := by simp

theorem replicate_nil_sublist {α : Type} {n : Nat} (v : Vector (List α) n) (j : Fin n) :
    (Vector.replicate n ([] : List α))[j].Sublist v[j] := by simp

theorem Paths.Within.overtake {p : Paths} (h : p.Within) (a : AxisIx) : (p.overtake a).Within :=
  ⟨h.1, fun sg => by simpa [Paths.overtake] using h.2 sg⟩

theorem upd_length_le {α : Type} {n m : Nat} {v : Vector (List α) n} {i : Fin n} {f : List α → List α}
    (hf : (f v[i]).length ≤ m) (j : Fin n) (h : v[j].length ≤ m) : (upd v i f)[j].length ≤ m := by
  rw [upd_get]
  split
  · exact hf
  · exact h

section
variable {P : State → Prop} (h : PartLaw P)
include h

theorem PartLaw.permit {s : State} (hs : P s) (g : GroupIx) {f : Permit → Permit}
    (hf : s.permits[g].Lawful → (f s.permits[g]).Lawful) : P (s.modPermit g f) :=
  h.permits hs fun k hk => lawful_upd hf k hk

theorem PartLaw.tripClosed : TripClosed P where
  post := fun b s hs => h.calmer hs (ClSide.calmer_post _ b s.cl)
  drop := fun a s hs => h.fewerSetpoints (h.calmer hs (s.cl.calmer_dropAxis a)) fun sg => map_filter_sublist _ _ sg
  stop := h.addStop
  purge := fun _ _ hs => h.fewerSetpoints hs fun sg => map_filter_sublist _ _ sg
  toTripped := fun r s _ hs => h.others (h.permit hs r.group fun _ => ⟨fun _ => rfl, fun _ => rfl⟩) {}
  further := fun g s _ hs => h.permit hs g fun hp => hp.of_notes ⟨rfl, rfl, rfl⟩
  close := fun sg s hs => h.others hs (by rw [closeCheck_eq]; exact {})
  corrected := fun _ _ _ hs => h.others hs {}
  poisoned := fun _ _ _ hs => h.others hs {}
  creepEnd := fun _ _ _ _ _ hs => h.others hs {}
  record := fun _ _ _ _ hs => h.others hs {}
  send := fun _ _ hs => h.others hs {}
  draw := fun _ hs => h.others hs {}

theorem PartLaw.egressClosed : EgressClosed P where
  toTripClosed := h.tripClosed
  unstop := fun sg a s hs => h.fewerStops hs fun k => upd_sublist (i := sg) List.filter_sublist k
  dequeue := fun sg s hs => h.fewerSetpoints hs fun k => upd_sublist (i := sg) (List.tail_sublist _) k
  sendCheck := sendCheck_keeps h.tripClosed (fun _ _ _ hs => h.others hs {}) (fun _ _ hs => h.others hs {})
    (fun _ _ hs => h.others hs {})
  transmit := fun _ _ _ hs => h.others hs {}
  unbeacon := fun _ _ hs => h.others hs {}

theorem PartLaw.cycleClosed : CycleClosed P where
  toEgressClosed := h.egressClosed
  permit := fun g st lapse ht hd s hs => h.others (h.permit (f := fun p =>
    { p with state := st, lapse := lapse, halfDone := false }) hs g fun _ =>
      ⟨fun hst => hst.elim hd fun e => absurd e ht, fun _ => rfl⟩) {}
  notes := fun g f hf s hs => h.permit hs g fun hp => hp.of_notes (hf _)
  decrement := fun g s hp hs => h.permit hs g fun hl => Permit.lawful_armed hp hl.2
  creep := fun _ _ _ hs => h.others hs {}
  axis := fun _ _ _ hs => h.others hs {}
  sendAny := fun _ _ _ hs => h.others hs {}
  segPort := fun _ _ _ hs => h.others hs {}
  clPort := fun _ _ hs => h.others hs {}
  timeout := fun _ _ hs => h.others hs {}
  scrubPos := fun _ _ hs => h.others hs {}

theorem PartLaw.workClosed : WorkClosed P where
  toCycleClosed := h.cycleClosed
  service := fun g lapse half s hp hs => h.permit hs g fun _ => Permit.lawful_armed (.inr hp) fun hn => absurd hp hn
  removeStops := fun l s hs => h.fewerStops hs fun sg => map_filter_sublist _ _ sg
  filterQueue := fun q s hs => h.fewerSetpoints hs fun sg => map_filter_sublist _ _ sg
  settings := fun f hf s hs => h.timer hs fun ht => ⟨hf, ht.2⟩
  overtake := fun a s hs => h.paths hs fun hw => hw.overtake a
  shadow := fun k src s hp hs => h.shadow _ s hp hs
  setPending := h.setPending
  loadIdle := fun s hp hs => h.calmer hs (ClSide.calmer_loadIdle _ s.cl hp)
  clearCounters := fun s hs => h.others (h.calmer (c := { s.cl with overrunTotal := 0 })
    (h.permits (v := s.permits.map Permit.clearFurther) hs fun g hg => by
      have hnotes : (s.permits.map Permit.clearFurther)[g] = s.permits[g].clearFurther := by simp
      rw [hnotes]
      unfold Permit.clearFurther
      split
      · exact hg
      · exact hg.of_notes ⟨rfl, rfl, rfl⟩) { ClSide.Calmer.refl s.cl with }) {}
  enqueue := fun e s hs => by
    unfold State.enqueue
    split
    · exact h.addSetpoint _ e s hs
    · exact hs
  forward := fun sg e s hs => h.calmer (s := { s with cl := { s.cl with forward := upd s.cl.forward sg (placeForward e) } })
    (h.addForward sg e s hs) (ClSide.calmer_kick _ _)
  zones := fun _ _ hs => h.others hs {}
  takeRequest := fun _ _ hs => h.others hs {}
  startCheck := fun _ _ _ _ _ hs => h.others hs {}
  stale := fun _ _ hs => h.others hs {}
  pair := fun _ _ _ hs => h.others hs {}
  waypoints := fun _ _ hs => h.others hs {}
  inputs := fun _ _ hs => h.others hs {}
  storeAxis := fun _ _ _ _ hs => h.others hs {}
  storeGroup := fun _ _ _ _ hs => h.others hs {}
  storePair := fun _ _ _ hs => h.others hs {}
  storeExtent := fun _ _ _ hs => h.others hs {}
  readPtr := fun _ _ hs => h.others hs {}

theorem PartLaw.resetBlock (b : ResetBlock) (s : State) (hb : b ≠ .trip) (hs : P s) : P (s.resetBlock b) := by
  cases b with
  | timer =>
    exact h.others (h.timer (f := s.settings) (t := { s.timer with cycle := 0, phase := 0 }) hs fun ht =>
      ⟨ht.1, ht.2.1, ht.2.2.1, Nat.lt_of_lt_of_le (show 0 < 500 by decide) ht.2.1⟩) {}
  | monitor =>
    exact h.others (h.calmer (c := { s.cl with forward := Vector.replicate 4 [] }) hs
      { ClSide.Calmer.refl s.cl with forward := fun n => replicate_nil_sublist _ n }) {}
  | admission =>
    exact h.others (h.fewerSetpoints (v := Vector.replicate 4 []) hs fun sg => replicate_nil_sublist _ sg) {}
  | permit =>
    exact h.others (h.permits (v := Vector.replicate 8 .reset) hs fun g _ => by
      have hg : (Vector.replicate 8 Permit.reset)[g] = Permit.reset := by simp
      rw [hg]
      exact Permit.lawful_reset) {}
  | management =>
    exact h.calmer hs { ClSide.Calmer.refl s.cl with reports := fun _ => Nat.zero_le _ }
  | scheduler => exact h.calmer hs { ClSide.Calmer.refl s.cl with pending := fun hp => absurd hp (by simp) }
  | trip => exact absurd rfl hb
  | port p => cases p <;> exact h.others hs {}
  | tables | zone | check => exact h.others hs {}

/-- The cycle start takes up the period of the settings, with phase 0 (R21). -/
theorem PartLaw.beginCycle (s : State) (t : Timer) (hs : P s) : P { s with timer := t }.beginCycle :=
  h.others (h.timer (f := s.settings)
    (t := { t with cycle := t.cycle + 1, period := s.settings.cyclePeriod, phase := 0 }) hs fun ht => by
    have hr := ht.1
    simp only [Settings.inRange, Bool.and_eq_true, decide_eq_true_eq] at hr
    exact ⟨ht.1, hr.1.1.1.1, hr.1.1.1.2, Nat.lt_of_lt_of_le (show 0 < 500 by decide) hr.1.1.1.1⟩) {}

/-- A law of these pieces is kept by every step. -/
theorem PartLaw.stepClosed : StepClosed P where
  toWorkClosed := h.workClosed
  popRequest := fun s hs => h.requests hs fun hl => Nat.le_trans (by simp) hl
  pushReply := fun r s hlt hs => h.calmer (s := { s with cl := { s.cl with replies := s.cl.replies ++ [r] } })
    (h.addReply r s hlt hs) (ClSide.calmer_kick _ _)
  queueRequest := fun r s hs => by
    unfold State.queueRequest
    split
    · next hlt => exact h.requests hs fun _ => length_concat_le hlt
    · exact h.others hs {}
  pathSetpoint := fun f s hs => by
    unfold State.pathSetpoint
    split
    · next hlt => exact h.paths hs fun hw => ⟨length_concat_le hlt, hw.2⟩
    · exact h.others hs {}
  pathSample := fun sg f s hs => by
    unfold State.pathSample
    split
    · next hlt =>
      refine h.paths hs fun hw => ⟨hw.1, fun k => ⟨upd_length_le (i := sg) ?_ k (hw.2 k).1, (hw.2 k).2⟩⟩
      exact length_concat_le hlt
    · exact h.others hs {}
  pathEcho := fun sg f s hs => by
    unfold State.pathEcho
    split
    · next hlt =>
      refine h.paths hs fun hw => ⟨hw.1, fun k => ⟨(hw.2 k).1, upd_length_le (i := sg) ?_ k (hw.2 k).2⟩⟩
      exact length_concat_le hlt
    · exact h.others hs {}
  popSetpoint := fun f rest s he hs => h.paths hs fun hw => ⟨by
    have h1 := hw.1
    rw [he] at h1
    exact Nat.le_trans (Nat.le_succ _) h1, hw.2⟩
  popSample := fun sg f rest s he hs => h.paths hs fun hw => ⟨hw.1, fun k => ⟨by
    have h1 := (hw.2 sg).1
    rw [he] at h1
    rw [set_get]
    split
    · exact Nat.le_trans (Nat.le_succ _) h1
    · exact (hw.2 k).1, (hw.2 k).2⟩⟩
  popEcho := fun sg f rest s he hs => h.paths hs fun hw => ⟨hw.1, fun k => ⟨(hw.2 k).1, by
    have h1 := (hw.2 sg).2
    rw [he] at h1
    rw [set_get]
    split
    · exact Nat.le_trans (Nat.le_succ _) h1
    · exact (hw.2 k).2⟩⟩
  endCl := fun s hs => h.calmer hs (ClSide.calmer_endTransmission _ s.cl)
  cycle := fun s hs => h.beginCycle s _ hs
  clock := fun s hlt hs => h.timer hs fun ht => ⟨ht.1, ht.2.1, ht.2.2.1, hlt⟩
  clockEnd := fun s hs => h.beginCycle s _ hs
  beginReset := fun s _ hs => h.others (h.requests (l := []) hs fun _ => Nat.zero_le _) {}
  resetBlock := fun b s hb _ hs => h.resetBlock b s hb hs
  resetStops := fun s hs => h.fewerStops hs fun sg => replicate_nil_sublist _ sg
  pinReset := fun _ _ _ => h.others h.reset {}
  endSegment := fun _ _ hs => h.others hs {}
  pending := fun _ _ hs => h.others hs {}
  doneReset := fun _ _ hs => h.others hs {}

end

/-! ## The laws -/

theorem lapseLaw_partLaw : PartLaw LapseLaw where
  others := fun hs h g => by
    have hg := hs g
    rw [State.permitState, ← h.permits] at hg
    exact hg
  permits := fun hs hv g => hv g (hs g)
  reset := fun g => by
    have hg : State.reset.permits[g] = Permit.reset := by simp [State.reset]
    rw [State.permitState, hg]
    exact Permit.lawful_reset

theorem timerLaw_partLaw : PartLaw TimerLaw where
  others := fun hs h => by
    rw [TimerLaw, h.timer, h.settings]
    exact hs
  timer := fun hs ht => ht hs
  reset := ⟨rfl, by decide, by decide, by decide⟩

theorem scheduleLaw_partLaw : PartLaw ScheduleLaw where
  others := fun hs h => by
    rw [ScheduleLaw, h.cl]
    exact hs
  calmer := fun {s c} hs h => by
    refine ⟨?_, fun hp => ?_⟩
    · obtain hl | ⟨hp, hl⟩ := h.live
      · exact hl ▸ hs.1
      · exact hl ▸ hs.2 hp
    · change missingSource c.schedule.shadow = none
      rw [h.shadow]
      exact hs.2 (h.pending hp)
  shadow := fun t s hp hs => ⟨hs.1, fun hp' => absurd (hp ▸ hp') (by simp)⟩
  setPending := fun s hm hs => ⟨hs.1, fun _ => hm⟩
  reset := ⟨by decide, fun hp => absurd hp (by decide)⟩

theorem queueLaw_partLaw : PartLaw QueueLaw where
  others := fun hs h => by
    rw [QueueLaw, h.requests, h.cl, h.paths]
    exact hs
  calmer := fun ⟨hreq, hrep, hpost, hpath⟩ h =>
    ⟨hreq, Nat.le_trans h.replies.length_le hrep, h.reports hpost, hpath⟩
  addReply := fun r s hlt ⟨hreq, _, hpost, hpath⟩ => ⟨hreq, length_concat_le hlt, hpost, hpath⟩
  paths := fun ⟨hreq, hrep, hpost, hpath⟩ h => ⟨hreq, hrep, hpost, h hpath⟩
  requests := fun ⟨hreq, hrep, hpost, hpath⟩ h => ⟨h hreq, hrep, hpost, hpath⟩
  reset := ⟨Nat.zero_le _, Nat.zero_le _, Nat.zero_le _, Nat.zero_le _, fun sg => by simp [State.reset]⟩

/-! ## One entry for an axis -/

/-- In place of the axis's entry or at the tail, no axis has two entries (R34, R76). -/
theorem place_nodup {α : Type} (key : α → AxisIx) (e : α) (l : List α) (h : (l.map key).Nodup) :
    ((if l.any (fun x => key x == key e) then l.map fun x => if key x = key e then e else x else l ++ [e]).map
      key).Nodup := by
  split
  · have hkeys : (l.map fun x => if key x = key e then e else x).map key = l.map key := by
      rw [List.map_map]
      refine List.map_congr_left fun x _ => ?_
      simp only [Function.comp_apply]
      split
      · next hx => exact hx.symm
      · rfl
    rw [hkeys]
    exact h
  · next hany =>
    rw [List.map_append, List.nodup_append]
    refine ⟨h, List.nodup_singleton _, fun a ha b hb => ?_⟩
    obtain ⟨x, hx, rfl⟩ := List.mem_map.mp ha
    simp only [List.map_cons, List.map_nil, List.mem_singleton] at hb
    subst hb
    intro hxe
    exact hany (List.any_eq_true.mpr ⟨x, hx, by simp [hxe]⟩)

/-- A stop set stays ascending without repeats (R112). -/
theorem insertAxis_pairwise (a : AxisIx) (l : List AxisIx) (h : l.Pairwise (· < ·)) :
    (insertAxis a l).Pairwise (· < ·) := by
  induction l with
  | nil => exact List.pairwise_singleton _ _
  | cons b l ih =>
    obtain ⟨hb, hl⟩ := List.pairwise_cons.mp h
    unfold insertAxis
    split
    · next hab =>
      refine List.pairwise_cons.mpr ⟨fun c hc => ?_, h⟩
      rcases List.mem_cons.mp hc with rfl | hc
      · exact hab
      · exact hab.trans (hb c hc)
    · split
      · exact h
      · next hlt hne =>
        refine List.pairwise_cons.mpr ⟨fun c hc => ?_, ih hl⟩
        rcases (mem_insertAxis a c l).mp hc with rfl | hc
        · exact lt_of_le_of_ne (not_lt.mp hlt) (Ne.symm hne)
        · exact hb c hc

theorem oneEachLaw_partLaw : PartLaw OneEachLaw where
  others := fun hs h sg => by
    rw [h.setpoints, h.stopSet, h.cl]
    exact hs sg
  calmer := fun hs h sg =>
    ⟨(hs sg).1, ((h.forward sg).map _).nodup (hs sg).2.1, (hs sg).2.2⟩
  fewerSetpoints := fun hs h sg => ⟨((h sg).map _).nodup (hs sg).1, (hs sg).2⟩
  fewerStops := fun hs h sg => ⟨(hs sg).1, (hs sg).2.1, (hs sg).2.2.sublist (h sg)⟩
  addForward := fun sg e s hs k => by
    refine ⟨(hs k).1, ?_, (hs k).2.2⟩
    simp only [upd_get]
    split
    · exact place_nodup ForwardEntry.axis e _ (hs sg).2.1
    · exact (hs k).2.1
  addSetpoint := fun sg e s hs k => by
    refine ⟨?_, (hs k).2⟩
    simp only [State.modEgress_egress, upd_get]
    split
    · exact place_nodup SetpointEntry.axis e _ (hs sg).1
    · exact (hs k).1
  addStop := fun sg a s hs k => by
    refine ⟨(hs k).1, (hs k).2.1, ?_⟩
    simp only [State.modEgress_egress, upd_get]
    split
    · exact insertAxis_pairwise a _ (hs sg).2.2
    · exact (hs k).2.2
  reset := fun sg => by simp [State.reset, Egress.reset, ClSide.reset]

end Sys2Proof.Machine
end

section
/-! PROOF. What a trip leaves, while no record shows an error: each job of the transition, and all of them in any order. -/

namespace Sys2Proof.Machine

/-! ## The trip unit's work -/

/-- Steps 1 to 7 of R110 but for the reports: the stops owed, the purge, the run aborted, the record, the passing on. -/
theorem tripUnitWork_sound (trip : TripRequest → State → State) (r : TripRequest) (left : PermitState) (u : State)
    (h : u.Sound) : ∃ v : Vector (List AxisIx) 4,
      (∀ (sg : SegIx) (a : AxisIx), a ∈ v[sg] ↔ a ∈ u.egress.stopSet[sg] ∨
        (a ∈ u.memberList r.group ∧ segOfByte u.tables.axes[a].held.segment = some sg)) ∧
      u.tripUnitWork trip r left = { u with
        egress := { u.egress with
          stopSet := v
          setpoints := u.egress.setpoints.map (·.filter fun q => !(q.mode == .position && u.groupOf q.axis == some r.group)) }
        creep := if u.creep[r.group].state = .running then
            upd u.creep r.group (fun c => { c with state := .aborted, verdict := .unknown }) else u.creep
        ring := u.ring.push (u.tripRecord r left (u.memberList r.group))
        inFlight := u.inFlight ++ (if r.cause.cause = .propagated then [] else (u.propagationTargets r.group).map fun h =>
          (TripSender.tripUnit, ⟨h, ⟨.propagated, .none⟩, some r.group⟩))
        cl := (u.tripUnitWork trip r left).cl } := by
  obtain ⟨v, hv, hmem⟩ := oweStops_sound trip (u.memberList r.group) u h
  refine ⟨v, hmem, ?_⟩
  have hs : (State.purgeGroup r.group { u with egress := { u.egress with stopSet := v } }).Sound := Sound.of_tables h rfl
  unfold State.tripUnitWork
  simp only [touchWith_clean _ _ _ _ (h _), hv]
  unfold State.propagate State.abortCreep
  have hcreep : (State.purgeGroup r.group { u with egress := { u.egress with stopSet := v } }).creep = u.creep := rfl
  rw [endCreep_sound _ _ _ _ _ _ hs, hcreep]
  split <;> split
  all_goals first
    | rw [sendAll_eq]; rfl
    | simp only [List.append_nil]; rfl

/-! ## The jobs of a transition, in any order -/

/-- The reports of one job of a transition: the end of a link check (R131), or those of the trip unit (R120, R136). -/
def tripReport (s : State) (r : TripRequest) (left : PermitState) (c : ClSide) : Option SegIx → ClSide
  | some sg => c.post s.postContext (.linkCheckDone s.checks[sg].axis .aborted sg s.checks[sg].phase
      s.checks[sg].expected none s.checks[sg].stale)
  | none => (if s.creep[r.group].state = .running then c.post s.postContext (.creepDone r.group
        { s.creep[r.group] with state := .aborted, verdict := .unknown }
        s.tables.groups[r.group].held.creepLimit (some (.trip r.cause.cause))) else c).post s.postContext
      (.trip r.group r.cause r.origin left s.ring.writePtr (s.ring.number + 1) (s.memberList r.group).length)

/-- One job of a transition (R102). -/
def tripJob (trip : TripRequest → State → State) (r : TripRequest) (left : PermitState) (s : State) : Option SegIx → State
  | some sg => s.abortChecks (fun _ => true) [sg]
  | none => s.tripUnitWork trip r left

/-- What the jobs done so far have left of the state in which the transition was made. -/
structure TripStage (s : State) (r : TripRequest) (left : PermitState) (done : List (Option SegIx)) (u : State) : Prop where
  frame : u = { s with
    checks := u.checks, creep := u.creep, ring := u.ring, inFlight := u.inFlight, cl := u.cl
    egress := { s.egress with
      stopSet := u.egress.stopSet, setpoints := u.egress.setpoints, checkSlot := u.egress.checkSlot } }
  checks : ∀ sg : SegIx, u.checks[sg] = if some sg ∈ done then { s.checks[sg] with inFlight := false } else s.checks[sg]
  checkSlot : ∀ sg : SegIx, u.egress.checkSlot[sg] =
    if some sg ∈ done ∧ s.checks[sg].sent = false then none else s.egress.checkSlot[sg]
  stopSet : ∀ (sg : SegIx) (a : AxisIx), a ∈ u.egress.stopSet[sg] ↔ a ∈ s.egress.stopSet[sg] ∨
    (none ∈ done ∧ a ∈ s.memberList r.group ∧ segOfByte s.tables.axes[a].held.segment = some sg)
  setpoints : u.egress.setpoints = if none ∈ done then s.egress.setpoints.map (·.filter fun q =>
    !(q.mode == .position && s.groupOf q.axis == some r.group)) else s.egress.setpoints
  creep : u.creep = if none ∈ done ∧ s.creep[r.group].state = .running then
    upd s.creep r.group (fun c => { c with state := .aborted, verdict := .unknown }) else s.creep
  ring : u.ring = if none ∈ done then s.ring.push (s.tripRecord r left (s.memberList r.group)) else s.ring
  inFlight : u.inFlight = s.inFlight ++ (if none ∉ done ∨ r.cause.cause = .propagated then [] else
    (s.propagationTargets r.group).map fun h => (TripSender.tripUnit, ⟨h, ⟨.propagated, .none⟩, some r.group⟩))
  cl : u.cl = done.foldl (tripReport s r left) s.cl

theorem TripStage.start (s : State) (r : TripRequest) (left : PermitState) : TripStage s r left [] s where
  frame := rfl
  checks sg := by simp
  checkSlot sg := by simp
  stopSet sg a := by simp
  setpoints := by simp
  creep := by simp
  ring := by simp
  inFlight := by simp
  cl := rfl

/-- A link check of the group ends (R130). -/
theorem TripStage.endCheck {s u : State} {r : TripRequest} {left : PermitState} {done : List (Option SegIx)} {sg : SegIx}
    {trip : TripRequest → State → State} (h : TripStage s r left done u) (hsg : s.checks[sg].inFlight = true)
    (hnew : some sg ∉ done) : TripStage s r left (done ++ [some sg]) (tripJob trip r left u (some sg)) := by
  have hu : u.checks[sg] = s.checks[sg] := by rw [h.checks, if_neg hnew]
  have hctx : u.postContext = s.postContext := by rw [h.frame]; rfl
  have hjob : tripJob trip r left u (some sg) = u.endCheck sg .aborted none := by
    simp only [tripJob, State.abortChecks, List.foldl_cons, List.foldl_nil, Bool.and_true, hu, hsg, if_true]
  have hcl : (u.endCheck sg .aborted none).cl = tripReport s r left u.cl (some sg) := by
    unfold State.endCheck
    rw [post_eq, closeCheck_eq]
    simp only [hu, tripReport, ← hctx]
    rfl
  have hmem : ∀ k : SegIx, some k ∈ done ++ [some sg] ↔ some k ∈ done ∨ sg = k := by
    intro k
    simp [eq_comm]
  have hnone : none ∈ done ++ [some sg] ↔ none ∈ done := by simp
  rw [hjob]
  constructor
  case frame => rw [endCheck_eq]; simp only; rw [h.frame]
  case checks =>
    intro k
    rw [endCheck_eq]
    simp only [upd_get, hmem]
    by_cases hk : sg = k
    · subst hk
      simp [hu]
    · simp only [hk, if_false, or_false]
      exact h.checks k
  case checkSlot =>
    intro k
    rw [endCheck_eq]
    simp only [hmem, apply_ite (fun v : Vector (Option CheckFrame) 4 => v[k]), set_get]
    rw [hu]
    by_cases hk : sg = k
    · subst hk
      have hold := h.checkSlot sg
      rw [if_neg (by simp [hnew])] at hold
      by_cases hsent : s.checks[sg].sent = true
      · rw [if_pos hsent, if_neg fun hno => by rw [hsent] at hno; cases hno.2]
        exact hold
      · rw [if_neg hsent, if_pos rfl, if_pos ⟨Or.inr rfl, by simpa using hsent⟩]
    · have := h.checkSlot k
      simpa only [hk, or_false, if_false, ite_self] using this
  case stopSet =>
    intro k a
    rw [endCheck_eq, hnone]
    exact h.stopSet k a
  case setpoints => rw [endCheck_eq]; simp only [hnone]; exact h.setpoints
  case creep => rw [endCheck_eq]; simp only [hnone]; exact h.creep
  case ring => rw [endCheck_eq]; simp only [hnone]; exact h.ring
  case inFlight => rw [endCheck_eq]; simp only [hnone]; exact h.inFlight
  case cl => rw [hcl, List.foldl_append, ← h.cl]; rfl

/-- The trip unit takes the trip (R110). -/
theorem TripStage.tripUnit {s u : State} {r : TripRequest} {left : PermitState} {done : List (Option SegIx)}
    {trip : TripRequest → State → State} (h : TripStage s r left done u) (hs : s.Sound)
    (hnew : none ∉ done) : TripStage s r left (done ++ [none]) (tripJob trip r left u none) := by
  have ht : u.tables = s.tables := by rw [h.frame]
  have hu : u.Sound := Sound.of_tables hs ht
  have hcreep : u.creep = s.creep := by rw [h.creep]; simp [hnew]
  have hring : u.ring = s.ring := by rw [h.ring]; simp [hnew]
  have hset : u.egress.setpoints = s.egress.setpoints := by rw [h.setpoints]; simp [hnew]
  have hmembers : u.memberList r.group = s.memberList r.group := by
    unfold State.memberList State.members State.groupOf
    rw [ht]
  have htargets : u.propagationTargets r.group = s.propagationTargets r.group := by
    unfold State.propagationTargets
    rw [ht]
  have hgroup : u.groupOf = s.groupOf := by
    funext a
    unfold State.groupOf
    rw [ht]
  have hrecord : u.tripRecord r left (s.memberList r.group) = s.tripRecord r left (s.memberList r.group) := by
    unfold State.tripRecord
    rw [hring, h.frame]
  have hctx : u.postContext = s.postContext := by rw [h.frame]; rfl
  have hcl := tripUnitWork_cl trip r left u hu
  obtain ⟨v, hv, hwork⟩ := tripUnitWork_sound trip r left u hu
  have hmem : ∀ k : SegIx, some k ∈ done ++ [none] ↔ some k ∈ done := by simp
  have hnone : none ∈ done ++ [none] := by simp
  have hjob : tripJob trip r left u none = u.tripUnitWork trip r left := rfl
  rw [hmembers, htargets, hgroup, hrecord, hcreep, hring, hset] at hwork
  rw [hmembers, hctx, hcreep, hring, ht] at hcl
  rw [hjob]
  constructor
  case frame => rw [hwork]; simp only; rw [h.frame]
  case checks => intro k; rw [hwork]; simp only [hmem]; exact h.checks k
  case checkSlot => intro k; rw [hwork]; simp only [hmem]; exact h.checkSlot k
  case stopSet =>
    intro k a
    rw [hwork]
    simp only [hnone, true_and]
    rw [hv, hmembers, ht, h.stopSet]
    simp [hnew]
  case setpoints => rw [hwork, if_pos hnone]
  case creep => rw [hwork]; simp only [hnone, true_and]
  case ring => rw [hwork, if_pos hnone]
  case inFlight =>
    rw [hwork]
    simp only [h.inFlight, hnew, not_false_eq_true, true_or, if_true, List.append_nil, hnone, not_true_eq_false, false_or]
  case cl => rw [hcl, List.foldl_append, ← h.cl]; rfl

theorem TripStage.jobs {s : State} {r : TripRequest} {left : PermitState} {trip : TripRequest → State → State}
    (hs : s.Sound) (l : List (Option SegIx)) : ∀ (done : List (Option SegIx)) (u : State), TripStage s r left done u →
      (done ++ l).Nodup → (∀ sg, some sg ∈ l → s.checks[sg].inFlight = true) →
      TripStage s r left (done ++ l) (l.foldl (tripJob trip r left) u) := by
  induction l with
  | nil =>
    intro done u h _ _
    simpa using h
  | cons job l ih =>
    intro done u h hnodup hsegs
    have hassoc : done ++ job :: l = (done ++ [job]) ++ l := by simp
    have hnew : job ∉ done := fun hmem =>
      (List.nodup_append.mp hnodup).2.2 _ hmem _ List.mem_cons_self rfl
    rw [hassoc] at hnodup ⊢
    rw [List.foldl_cons]
    refine ih _ _ ?_ hnodup fun sg hsg => hsegs sg (List.mem_cons_of_mem _ hsg)
    cases job with
    | some sg => exact h.endCheck (hsegs sg List.mem_cons_self) hnew
    | none => exact h.tripUnit hs hnew

/-! ## The transition -/

theorem inFreeOrder_perm {α : Type} (l : List α) (s : State) : (s.inFreeOrder l).1.Perm l := by
  match l with
  | [] => exact .rfl
  | [_] => exact .rfl
  | _ :: _ :: _ => exact permute_perm _ _

/-- The permit and the brake-release line of a group that trips (R102, R106). -/
def State.tripped (r : TripRequest) (s : State) : State := (s.modPermit r.group (·.toTripped r)).setBrk r.group false

theorem checkedSegments_inFlight {s : State} {g : GroupIx} {sg : SegIx} (h : sg ∈ s.checkedSegments g) :
    s.checks[sg].inFlight = true := by
  simp only [State.checkedSegments, List.mem_filter, Bool.and_eq_true] at h
  exact h.2.1

theorem tripJobs_nodup (s : State) (g : GroupIx) : ((s.checkedSegments g).map some ++ [none]).Nodup := by
  have hsegs : (s.checkedSegments g).Nodup := (List.nodup_finRange 4).filter _
  refine List.nodup_append.mpr ⟨hsegs.map (Option.some_injective _), by simp, ?_⟩
  simp

/-- All the jobs of a transition are done, in some order (log 15). -/
theorem transition_stage (trip : TripRequest → State → State) (r : TripRequest) (s : State) (hs : s.Sound) :
    ∃ (n : Nat) (jobs : List (Option SegIx)), jobs.Perm ((s.checkedSegments r.group).map some ++ [none]) ∧
      TripStage { s.tripped r with freeCount := n } r (s.permitState r.group) jobs (s.transition trip r) := by
  let jobs := (s.tripped r).inFreeOrder (((s.tripped r).checkedSegments r.group).map some ++ [none])
  have hperm : jobs.1.Perm ((s.checkedSegments r.group).map some ++ [none]) := inFreeOrder_perm _ _
  have hstate : jobs.2 = { s.tripped r with freeCount := jobs.2.freeCount } := inFreeOrder_state _ _
  refine ⟨jobs.2.freeCount, jobs.1, hperm, ?_⟩
  have hwork : s.transition trip r = jobs.1.foldl (tripJob trip r (s.permitState r.group)) jobs.2 := rfl
  have hsound : State.Sound { s.tripped r with freeCount := jobs.2.freeCount } := Sound.of_tables hs rfl
  rw [hwork, hstate]
  refine TripStage.jobs (done := []) hsound jobs.1 _ (TripStage.start _ r _) ?_ ?_
  · rw [List.nil_append, hperm.nodup_iff]
    exact tripJobs_nodup s r.group
  · intro sg hsg
    have hmem : sg ∈ s.checkedSegments r.group := by simpa using hperm.mem_iff.mp hsg
    exact checkedSegments_inFlight hmem

theorem trip_eq_transition {s : State} {r : TripRequest} (h : s.tripsOn r) :
    s.trip r = s.transition (State.takeTrip 8) r := by
  change s.tripWith (State.takeTrip 8) r = _
  unfold State.tripWith
  rcases h with h | h | ⟨h, hc⟩
  · rw [h]
  · rw [h]
  · rw [h]
    exact if_pos hc

/-- Settles O34: every job of the transition is done, in an order left open, and what the jobs leave depends on it only in the
order of the reports. -/
theorem tripStopsTheGroup : Obligations.TripStopsTheGroup := by
  intro s r hs htrips
  have hquiet : Quiet s (s.trip r) := Quiet.trip r s
  rw [trip_eq_transition htrips] at hquiet ⊢
  obtain ⟨n, jobs, hperm, h⟩ := transition_stage (State.takeTrip 8) r s hs
  have hnone : none ∈ jobs := hperm.mem_iff.mpr (by simp)
  have hsome : ∀ sg : SegIx, some sg ∈ jobs ↔
      s.checks[sg].inFlight = true ∧ s.groupOf s.checks[sg].axis = some r.group := by
    intro sg
    rw [hperm.mem_iff]
    simp [State.checkedSegments]
  refine ⟨?_, ?_, ?_, ?_, ?_, ?_, ?_, ?_, ?_, ?_, ?_, ⟨jobs, hperm, ?_⟩, ?_, hquiet⟩
  · rw [h.frame]; rfl
  · rw [h.frame]; rfl
  · intro sg a
    rw [h.stopSet]
    simp only [hnone, true_and]
    rfl
  · intro sg
    rw [h.setpoints, if_pos hnone]
    exact Vector.getElem_map ..
  · rw [h.ring, if_pos hnone]; rfl
  · rw [h.inFlight]
    simp only [hnone, not_true_eq_false, false_or]
    rfl
  · intro g
    rw [h.creep]
    simp only [hnone, true_and]
    change (if s.creep[r.group].state = .running then upd s.creep r.group _ else s.creep)[g] = _
    split
    · next hrun =>
      rw [upd_get]
      by_cases hg : r.group = g
      · subst hg
        rw [if_pos rfl, if_pos ⟨rfl, hrun⟩]
      · rw [if_neg hg, if_neg fun hno => hg hno.1.symm]
    · next hrun =>
      refine (if_neg ?_).symm
      rintro ⟨rfl, hno⟩
      exact hrun hno
  · intro sg
    rw [h.checks]
    simp only [hsome]
    rfl
  · intro sg
    rw [h.checkSlot]
    simp only [hsome, and_assoc]
    rfl
  · rw [h.frame]; rfl
  · rw [h.frame]; rfl
  · rw [h.cl]
    rfl
  · rw [h.frame]; rfl

end Sys2Proof.Machine
end

section
/-! PROOF. The taking of requests: one reply for each, the rows that leave a request waiting, the refusals that come
before the owning block's own checks, and the reads of the tables. -/

namespace Sys2Proof.Machine

/-! ## The owning block's work keeps what its primitive changes keep -/

theorem requestWork_workKeeps (d : Demand) : WorkKeeps (requestWork d) := by
  cases d with
  | unknown | writeZone | softReset => exact fun _ _ _ hs => hs
  | readAxis i => exact workKeeps_withIndex fun a _ hQ => hQ.touch _ (.axis a)
  | readGroup i => exact workKeeps_withIndex fun g _ hQ => hQ.touch _ (.group g)
  | readPair i => exact workKeeps_withIndex fun p _ hQ => hQ.touch _ (.pair p)
  | readExtent i => exact workKeeps_withIndex fun x _ hQ => hQ.touch _ (.extent x)
  | readZone i => exact workKeeps_withIndex fun z _ hQ => hQ.readZone z
  | readWaypoint i | readInput i | readSettings i | readSchedule i | readStatus i | creepResult i =>
    exact workKeeps_withIndex fun _ _ _ _ hs => hs
  | writeAxis i f => exact workKeeps_withIndex fun a _ hQ => hQ.writeAxis f a
  | writeGroup i f => exact workKeeps_withIndex fun g _ hQ => hQ.writeGroup f g
  | writePair i f => exact workKeeps_withIndex fun p _ hQ => hQ.writePair f p
  | writeExtent i f => exact workKeeps_withIndex fun x _ hQ => hQ.writeExtent f x
  | writeWaypoint i w => exact workKeeps_withIndex fun a _ hQ => hQ.writeWaypoint w a
  | writeInput i level groups => exact workKeeps_withIndex fun l _ hQ => hQ.writeInput level groups l
  | writeSettings i f => exact workKeeps_withIndex fun k _ hQ => hQ.writeSettings f k
  | writeSchedule i source => exact workKeeps_withIndex fun k _ hQ => hQ.writeSchedule source k
  | keyArm g => exact workKeeps_withIndex fun g _ hQ => hQ.presentArm g
  | keyRun g => exact workKeeps_withIndex fun g _ hQ => hQ.presentRun g
  | keyOther g => exact workKeeps_withIndex fun g _ hQ => hQ.presentOther g
  | park g => exact workKeeps_withIndex fun g _ hQ => hQ.parkGroup g
  | forceTrip g => exact workKeeps_withIndex fun g _ hQ => hQ.forceTripGroup g
  | clearTrip g => exact workKeeps_withIndex fun g _ hQ => hQ.clearTripGroup g
  | claimZone z g => exact workKeeps_withIndex fun z => workKeeps_withIndex fun g _ hQ => hQ.claim z g
  | releaseZone z g => exact workKeeps_withIndex fun z => workKeeps_withIndex fun g _ hQ => hQ.releaseRequest z g
  | linkCheck a => exact workKeeps_withIndex fun a _ hQ => hQ.linkCheck a
  | creepStart g d => exact workKeeps_withIndex fun g _ hQ => hQ.creepStart d g
  | creepStop g => exact workKeeps_withIndex fun g _ hQ => hQ.creepStop g
  | loadSchedule => exact fun _ hQ => hQ.loadSchedule
  | readTripRecord => exact fun _ hQ => hQ.readTripRecord
  | rewindTripRecords => exact fun _ hQ => hQ.rewindTripRecords
  | clearCounters => exact fun _ hQ => hQ.clearCounters

/-- The request queue is the same: no block's work touches it. -/
def SameRequests (s₀ s : State) : Prop := s.requests = s₀.requests

theorem sameRequests_tripClosed (s₀ : State) : TripClosed (SameRequests s₀) where
  close := fun sg s h => by
    rw [closeCheck_eq]
    exact h
  post := fun _ _ h => h
  corrected := fun _ _ _ h => h
  poisoned := fun _ _ _ h => h
  drop := fun _ _ h => h
  stop := fun _ _ _ h => h
  purge := fun _ _ h => h
  creepEnd := fun _ _ _ _ _ h => h
  record := fun _ _ _ _ h => h
  send := fun _ _ h => h
  toTripped := fun _ _ _ h => h
  further := fun _ _ _ h => h
  draw := fun _ h => h

theorem sameRequests_workClosed (s₀ : State) : WorkClosed (SameRequests s₀) where
  toTripClosed := sameRequests_tripClosed s₀
  sendCheck := sendCheck_keeps (sameRequests_tripClosed s₀) (fun _ _ _ h => h) (fun _ _ h => h) (fun _ _ h => h)
  enqueue := fun e s h => by
    unfold State.enqueue
    split <;> exact h
  transmit := fun _ _ _ h => h
  unstop := fun _ _ _ h => h
  unbeacon := fun _ _ h => h
  dequeue := fun _ _ h => h
  permit := fun _ _ _ _ _ _ h => h
  service := fun _ _ _ _ _ h => h
  notes := fun _ _ _ _ h => h
  creep := fun _ _ _ h => h
  removeStops := fun _ _ h => h
  filterQueue := fun _ _ h => h
  zones := fun _ _ h => h
  startCheck := fun _ _ _ _ _ h => h
  stale := fun _ _ h => h
  axis := fun _ _ _ h => h
  pair := fun _ _ _ h => h
  waypoints := fun _ _ h => h
  inputs := fun _ _ h => h
  settings := fun _ _ _ h => h
  takeRequest := fun _ _ h => h
  storeAxis := fun _ _ _ _ h => h
  storeGroup := fun _ _ _ _ h => h
  storePair := fun _ _ _ h => h
  storeExtent := fun _ _ _ h => h
  overtake := fun _ _ h => h
  shadow := fun _ _ _ _ h => h
  setPending := fun _ _ h => h
  loadIdle := fun _ _ h => h
  readPtr := fun _ _ h => h
  clearCounters := fun _ h => h
  sendAny := fun _ _ _ h => h
  forward := fun _ _ _ h => h
  segPort := fun _ _ _ h => h
  clPort := fun _ _ h => h
  decrement := fun _ _ _ h => h
  timeout := fun _ _ h => h
  scrubPos := fun _ _ h => h

/-- Settles O16: the request leaves the queue, its work forms no reply of its own, and one reply is formed from the answer. -/
theorem eachRequestGetsOneReply : Obligations.EachRequestGetsOneReply := by
  intro s q d hq hu hr
  obtain ⟨t, hexec, hanswer⟩ := exec_answered hq hu hr
  refine ⟨t, _, _, _, hexec, hanswer, ?_, ?_⟩
  · exact requestWork_workKeeps d _ (sameRequests_workClosed s.popRequest) s.popRequest rfl
  · exact requestWork_workKeeps d _ (noMoreReplies_workClosed s.popRequest) s.popRequest le_rfl

/-! ## Rows that leave a request waiting -/

/-- A row serves the requests it is for, and no other. -/
theorem exec_command (d : Demand) (hd : d ≠ .softReset) (s : State) : ∃ handle : Demand → Option (State → Answer),
    exec d.command s = .next (s.serve handle) ∧ ∀ e : Demand, e.command ≠ d.command → handle e = none := by
  cases d
  case softReset => exact absurd rfl hd
  all_goals
    refine ⟨_, rfl, fun e he => ?_⟩
    split
    · exact absurd rfl he
    · rfl

theorem takeable_none_of_full {s : State} (h : 8 ≤ s.cl.replies.length ∨ s.requests = []) : s.takeable = none := by
  unfold State.takeable
  rcases h with h | h
  · rw [if_neg]
    simp [Config.replyCapacity, Nat.not_lt.mpr h]
  · simp [h]

theorem takeable_none_of_resets {s : State} (h : s.resets ≠ []) : s.takeable = none := by
  unfold State.takeable
  rw [if_neg]
  simp [h]

theorem execSoftReset_untaken {s : State} (hr : s.resets = []) (h : s.takeable = none) :
    exec .softReset s = .next s := by
  simp only [exec, execSoftReset, hr, h]

/-- Settles O17: a row hands the head request to the block it is for, so it changes nothing for another request, nor when
none can be taken. -/
theorem otherRowsLeaveRequestWaiting : Obligations.OtherRowsLeaveRequestWaiting := by
  rintro s c ⟨d, rfl⟩
  by_cases hd : d = .softReset
  · subst hd
    refine ⟨fun q hq hne => ?_, fun hr hfull => execSoftReset_untaken hr (takeable_none_of_full hfull),
      fun _ hne => absurd rfl hne⟩
    have hother : q.demand ≠ .softReset := fun h => hne (by rw [h])
    change Host.Outcome.next _ = _
    rw [hq.done, hq.takeable]
    simp only [if_neg hother]
  · obtain ⟨handle, hexec, hother⟩ := exec_command d hd s
    refine ⟨fun q hq hne => ?_, fun _ hfull => ?_, fun hr _ => ?_⟩
    · rw [hexec, serve_other hq (hother _ hne)]
    · rw [hexec, serve_untaken (takeable_none_of_full hfull)]
    · rw [hexec, serve_untaken (takeable_none_of_resets hr)]

/-! ## Refusals before the owning block's checks -/

theorem withIndex_bad_second {m n : Nat} {b c : Byte} (h : m ≤ b.toNat ∨ n ≤ c.toNat) (s : State)
    (f : Fin m → Fin n → State → Answer) :
    (withIndex m b s fun i s => withIndex n c s (f i)) = .refuse s .badIndex := by
  by_cases hb : m ≤ b.toNat
  · exact withIndex_bad hb _ _
  · have hc : n ≤ c.toNat := h.resolve_left hb
    unfold withIndex
    split
    · exact withIndex_bad hc _ _
    · rfl

theorem requestWork_badIndex {d : Demand} (h : d.badIndex = true) (s : State) :
    requestWork d s = .refuse s .badIndex := by
  cases d with
  | unknown | writeZone | loadSchedule | readTripRecord | rewindTripRecords | clearCounters | softReset => cases h
  | claimZone z g | releaseZone z g =>
    simp only [Demand.badIndex, Bool.or_eq_true, decide_eq_true_eq] at h
    exact withIndex_bad_second h _ _
  | _ => exact withIndex_bad (of_decide_eq_true h) _ _

/-- The reply to a request without a code byte carries an unstated one (log 17). -/
theorem unknown_reply (s : State) (q : Request) :
    (∃ code, q.code = some code ∧ Answered q s .badRequest [[]] ((Answer.refuse s .badRequest).reply q).settle) ∨
      (q.code = none ∧ ∃ code : Byte, ((Answer.refuse s .badRequest).reply q).settle =
        ({ s with freeCount := s.freeCount + 1 }.pushReply ⟨q.tag, code, .badRequest, s.timer.cycle, [[]]⟩).settle) := by
  cases hcode : q.code with
  | some code =>
    refine .inl ⟨code, rfl, code, hcode, ?_⟩
    simp only [Answer.reply, State.replyCode, hcode]
    rfl
  | none =>
    refine .inr ⟨rfl, Config.freeByte s.freeCount, ?_⟩
    simp only [Answer.reply, State.replyCode, hcode]
    rfl

/-- Settles O18: an index out of range is found before the owning block's work, and the two rows that refuse everything
leave the state as it is. -/
theorem unfitRequestsAreRefused : Obligations.UnfitRequestsAreRefused := by
  intro s q d hq
  refine ⟨fun hbad => ?_, ?_, ?_⟩
  · have hu : d ≠ .unknown := by rintro rfl; cases hbad
    have hr : d ≠ .softReset := by rintro rfl; cases hbad
    obtain ⟨t, hexec, hanswer⟩ := exec_answered hq hu hr
    rw [requestWork_badIndex hbad] at hanswer
    exact ⟨t, hexec, hanswer⟩
  · rintro rfl
    exact exec_answered hq (by decide) (by decide)
  · rintro rfl
    refine ⟨_, rfl, ?_⟩
    rw [serve_presents hq rfl]
    exact unknown_reply s.popRequest q

/-! ## Reads -/

theorem readZone_free {s : State} {z : ZoneIx} (h : s.zones[z] = none) :
    readZone z s = .ok s [0xFF#8, 0, 0xFF#8, 0, 0, 0, 0, 0xFF#8] := by
  unfold readZone
  rw [h]

theorem readZone_owned {s : State} {z : ZoneIx} {g : GroupIx} (h : s.zones[z] = some g) :
    readZone z s = .ok (s.readMemberExtents .zone g) (match (s.readMemberExtents .zone g).occupant z g with
      | some o => [natByte g, 1, natByte o.axis] ++ bytes32 o.position ++ [natByte o.extent]
      | none => [natByte g, 0, 0xFF#8, 0, 0, 0, 0, 0xFF#8]) := by
  unfold readZone
  rw [h]
  cases hocc : (s.readMemberExtents .zone g).occupant z g <;> simp only [hocc]

theorem requestWork_readSettings (s : State) : requestWork (.readSettings 0) s = readSettings 0 s := rfl

/-- The answer to a request that names an object by its index. -/
theorem exec_answered_of {s : State} {q : Request} {d : Demand} {r : Answer} (h : s.Presents q d) (hu : d ≠ .unknown)
    (hr : d ≠ .softReset) (hwork : requestWork d s.popRequest = r) :
    ∃ t, exec d.command s = .next t ∧ Answered q r.state r.status r.parts t := hwork ▸ exec_answered h hu hr

/-- Settles O19: a read is the check of the check bits, and returns what the entry then holds. -/
theorem readsReturnContents : Obligations.ReadsReturnContents := by
  intro s q
  refine ⟨fun a hq => ?_, fun g hq => ?_, fun p hq => ?_, fun x hq => ?_, fun z hq => ?_, fun a hq => ?_, fun l hq => ?_,
    fun hq => ?_, fun k hq => ?_⟩
  · exact (exec_answered_of hq nofun nofun (withIndex_natByte (by decide) a _ _) :)
  · exact (exec_answered_of hq nofun nofun (withIndex_natByte (by decide) g _ _) :)
  · exact (exec_answered_of hq nofun nofun (withIndex_natByte (by decide) p _ _) :)
  · exact (exec_answered_of hq nofun nofun (withIndex_natByte (by decide) x _ _) :)
  · obtain ⟨t, hexec, hanswer⟩ := exec_answered_of hq nofun nofun (withIndex_natByte (by decide) z _ _)
    refine ⟨t, hexec, fun hfree => ?_, fun g hg => ?_⟩
    · rw [readZone_free (s := s.popRequest) hfree] at hanswer
      exact hanswer
    · rw [readZone_owned (s := s.popRequest) hg] at hanswer
      exact hanswer
  · exact (exec_answered_of hq nofun nofun (withIndex_natByte (by decide) a _ _) :)
  · exact (exec_answered_of hq nofun nofun (withIndex_natByte (by decide) l _ _) :)
  · exact (exec_answered_of hq nofun nofun (requestWork_readSettings _) :)
  · exact (exec_answered_of hq nofun nofun (withIndex_natByte (by decide) k _ _) :)

end Sys2Proof.Machine
end

section
/-! PROOF. Writing the tables: the checks of each write in their order, while no record shows an error, and its effect. -/

namespace Sys2Proof.Machine

/-! ## Answers chosen by a condition -/

theorem answered_ite (q : Request) (c : Prop) [Decidable c] (a b : Answer) (t : State) :
    Answered q (if c then a else b).state (if c then a else b).status (if c then a else b).parts t =
      if c then Answered q a.state a.status a.parts t else Answered q b.state b.status b.parts t := by
  split <;> rfl

/-! ## Axis entries -/

theorem writeAxis_sound (f : AxisFields) (a : AxisIx) {s : State} (h : s.Sound) : writeAxis f a s =
    if s.lockedGroup (s.groupOf a) then .refuse s .locked
    else if s.groupCreeps (s.groupOf a) then .refuse s .busy
    else if f.valid = false ∧ (s.groupOf a).isSome then .refuse s .referenced
    else if f.valid = true ∧ f.inRange = false then .refuse s .badValue
    else if f.valid = true ∧ s.stationTaken a f = true then .refuse s .conflict
    else .ok (s.storeAxis a f) [] := by
  unfold writeAxis
  simp only [touchAll_sound _ _ _ h, touch_sound _ _ _ h]
  cases f.valid <;> simp

/-- Settles O20: the checks of R7 in their order; no read of the write acts on a record without an error. -/
theorem axisWriteIsChecked : Obligations.AxisWriteIsChecked := by
  intro s q a f hq hs
  obtain ⟨t, hexec, hanswer⟩ := exec_answered_of hq nofun nofun (withIndex_natByte (by decide) a _ _)
  rw [writeAxis_sound f a (s := s.popRequest) (Sound.of_tables hs rfl)] at hanswer
  simp only [answered_ite] at hanswer
  exact ⟨t, hexec, hanswer⟩

/-- One link check in flight of an axis that qualifies ends. -/
def State.abortCheck (q : AxisIx → Bool) (s : State) (sg : SegIx) : State :=
  if s.checks[sg].inFlight && q s.checks[sg].axis then s.endCheck sg .aborted none else s

theorem abortCheck_checks (q : AxisIx → Bool) (s : State) (sg k : SegIx) : (s.abortCheck q sg).checks[k] =
    if sg = k ∧ s.checks[k].inFlight = true ∧ q s.checks[k].axis = true then { s.checks[k] with inFlight := false }
    else s.checks[k] := by
  unfold State.abortCheck
  simp only [Bool.and_eq_true]
  split
  · next h =>
    rw [endCheck_eq]
    dsimp only
    rw [upd_get]
    by_cases hk : sg = k
    · subst hk
      rw [if_pos rfl, if_pos ⟨rfl, h⟩]
    · rw [if_neg hk, if_neg fun hno => hk hno.1]
  · next h =>
    refine (if_neg ?_).symm
    rintro ⟨rfl, hno⟩
    exact h hno

theorem abortCheck_checkSlot (q : AxisIx → Bool) (s : State) (sg k : SegIx) : (s.abortCheck q sg).egress.checkSlot[k] =
    if sg = k ∧ s.checks[k].inFlight = true ∧ q s.checks[k].axis = true ∧ s.checks[k].sent = false then none
    else s.egress.checkSlot[k] := by
  unfold State.abortCheck
  simp only [Bool.and_eq_true]
  split
  · next h =>
    rw [endCheck_eq]
    simp only [apply_ite (fun v : Vector (Option CheckFrame) 4 => v[k]), set_get]
    by_cases hk : sg = k
    · subst hk
      by_cases hsent : s.checks[sg].sent = true
      · rw [if_pos hsent, if_neg]
        rintro ⟨_, _, _, hno⟩
        rw [hsent] at hno
        cases hno
      · rw [if_neg hsent, if_pos rfl, if_pos ⟨rfl, h.1, h.2, Bool.eq_false_iff.mpr hsent⟩]
    · rw [if_neg hk, ite_self, if_neg fun hno => hk hno.1]
  · next h =>
    refine (if_neg ?_).symm
    rintro ⟨rfl, h1, h2, _⟩
    exact h ⟨h1, h2⟩

theorem abortChecks_checks (q : AxisIx → Bool) (l : List SegIx) (hl : l.Nodup) (s : State) (k : SegIx) :
    (s.abortChecks q l).checks[k] =
      (if k ∈ l ∧ s.checks[k].inFlight = true ∧ q s.checks[k].axis = true then { s.checks[k] with inFlight := false }
      else s.checks[k]) ∧
    (s.abortChecks q l).egress.checkSlot[k] =
      (if k ∈ l ∧ s.checks[k].inFlight = true ∧ q s.checks[k].axis = true ∧ s.checks[k].sent = false then none
      else s.egress.checkSlot[k]) := by
  induction l generalizing s with
  | nil => simp [State.abortChecks]
  | cons sg l ih =>
    obtain ⟨hnew, hl⟩ := List.nodup_cons.mp hl
    have hstep : s.abortChecks q (sg :: l) = (s.abortCheck q sg).abortChecks q l := rfl
    obtain ⟨hchecks, hslot⟩ := ih hl (s.abortCheck q sg)
    rw [hstep, hchecks, hslot, abortCheck_checks, abortCheck_checkSlot]
    by_cases hk : sg = k
    · subst hk
      simp [hnew]
    · have hmem : k ∈ sg :: l ↔ k ∈ l := by simp [Ne.symm hk]
      simp only [hk, false_and, if_false, hmem]
      exact ⟨trivial, trivial⟩

/-- The record and the derived fields as a write of the axis leaves them, before its queues and its link check (R8). -/
def State.axisWritten (a : AxisIx) (f : AxisFields) (s : State) : State :=
  (s.modTables fun t => { t with axes := t.axes.set a (.fresh f.stored) }).modAxis a AxisRecord.written

/-- The work of a write in two steps: the link check that it ends, then the queues and the frames it overtakes. -/
theorem storeAxis_steps (s : State) (a : AxisIx) (f : AxisFields) :
    ∃ u : State, u = (s.axisWritten a f).abortChecks (· == a) (List.finRange 4) ∧ s.storeAxis a f =
      { u.dropAxisEntries a with paths := if s.tables.axes[a].held.moves f then s.paths.overtake a else s.paths } := by
  obtain ⟨u, hu⟩ : ∃ u, u = (s.axisWritten a f).abortChecks (· == a) (List.finRange 4) := ⟨_, rfl⟩
  have hpaths : u.paths = s.paths := by
    rw [hu, abortChecks_eq]
    rfl
  refine ⟨u, hu, ?_⟩
  have hstore : s.storeAxis a f = if s.tables.axes[a].held.moves f then
      { u.dropAxisEntries a with paths := (u.dropAxisEntries a).paths.overtake a } else u.dropAxisEntries a := by
    rw [hu]
    rfl
  rw [hstore, ← hpaths]
  split <;> rfl

theorem storeAxis_frame (s : State) (a : AxisIx) (f : AxisFields) : s.storeAxis a f = { s with
    tables := { s.tables with axes := s.tables.axes.set a ⟨if f.valid then f else AxisFields.default, .clean, false⟩ }
    axisRec := (s.storeAxis a f).axisRec, checks := (s.storeAxis a f).checks
    egress := { s.egress with
      setpoints := (s.storeAxis a f).egress.setpoints, checkSlot := (s.storeAxis a f).egress.checkSlot }
    cl := (s.storeAxis a f).cl
    paths := if s.tables.axes[a].held.moves f then s.paths.overtake a else s.paths } := by
  obtain ⟨u, hu, hstore⟩ := storeAxis_steps s a f
  rw [abortChecks_eq] at hu
  rw [hstore, hu]
  rfl

theorem storeAxis_setpoints (s : State) (a : AxisIx) (f : AxisFields) (sg : SegIx) :
    (s.storeAxis a f).egress.setpoints[sg] = s.egress.setpoints[sg].filter fun e => e.axis != a := by
  obtain ⟨u, hu, hstore⟩ := storeAxis_steps s a f
  have hset : u.egress.setpoints = s.egress.setpoints := by
    rw [hu, abortChecks_eq]
    rfl
  rw [hstore, ← hset]
  exact Vector.getElem_map ..

theorem storeAxis_checks (s : State) (a : AxisIx) (f : AxisFields) (sg : SegIx) :
    (s.storeAxis a f).checks[sg] =
      (if s.checks[sg].inFlight = true ∧ s.checks[sg].axis = a then { s.checks[sg] with inFlight := false }
      else s.checks[sg]) ∧
    (s.storeAxis a f).egress.checkSlot[sg] =
      (if s.checks[sg].inFlight = true ∧ s.checks[sg].axis = a ∧ s.checks[sg].sent = false then none
      else s.egress.checkSlot[sg]) := by
  obtain ⟨u, hu, hstore⟩ := storeAxis_steps s a f
  have h := abortChecks_checks (· == a) (List.finRange 4) (List.nodup_finRange 4) (s.axisWritten a f) sg
  simp only [List.mem_finRange, true_and, beq_iff_eq] at h
  rw [← hu] at h
  rw [hstore]
  exact h

theorem storeAxis_cl (s : State) (a : AxisIx) (f : AxisFields) :
    (s.storeAxis a f).cl = s.cl.withoutAxis s.postContext s.checks a := by
  obtain ⟨u, hu, hstore⟩ := storeAxis_steps s a f
  have h := abortChecks_cl a (List.finRange 4) (List.nodup_finRange 4) (s.axisWritten a f)
  rw [← hu] at h
  rw [hstore]
  unfold State.dropAxisEntries
  dsimp only
  rw [h]
  rfl

theorem mem_withoutAxis {ctx : PostContext} {checks : Vector LinkCheck 4} {a : AxisIx} {c : ClSide} {sg : SegIx}
    {e : ForwardEntry} (h : e ∈ (c.withoutAxis ctx checks a).forward[sg]) : e.axis ≠ a := by
  simp only [ClSide.withoutAxis, Fin.getElem_fin, Vector.getElem_map, List.mem_filter, bne_iff_ne] at h
  exact h.2

/-- Settles O21. -/
theorem axisWriteClearsTheRecord : Obligations.AxisWriteClearsTheRecord := by
  intro s a f
  refine ⟨storeAxis_frame s a f, storeAxis_axisRec s a f, fun sg => (storeAxis_checks s a f sg).1,
    fun sg => (storeAxis_checks s a f sg).2, storeAxis_setpoints s a f, storeAxis_cl s a f, fun sg e he => ?_⟩
  rw [storeAxis_cl] at he
  exact mem_withoutAxis he

/-! ## Group entries -/

theorem writeGroup_sound (f : GroupFields) (g : GroupIx) {s : State} (h : s.Sound) : writeGroup f g s =
    if s.permitState g ≠ .disarmed then .refuse s .locked
    else if s.creep[g].state = .running then .refuse s .busy
    else if f.valid = false ∧ ((∃ z : ZoneIx, s.zones[z] = some g) ∨ ∃ a ∈ s.members g, (s.pairOf a).isSome) then
      .refuse s .referenced
    else if f.valid = true ∧ (f.inRange g = false ∨ ∃ a ∈ f.members.filterMap axisOfByte, s.usableAxis a = false) then
      .refuse s .badValue
    else if f.valid = true ∧ ∃ a ∈ f.members.filterMap axisOfByte, ∃ h, s.groupOf a = some h ∧ h ≠ g then
      .refuse s .conflict
    else if f.valid = true ∧ ∃ a ∈ s.members g, a ∉ f.members.filterMap axisOfByte ∧ (s.pairOf a).isSome then
      .refuse s .referenced
    else .ok (s.storeGroup g f) [] := by
  have hzones : s.zones.any (· == some g) = true ↔ ∃ z : ZoneIx, s.zones[z] = some g := by
    simp only [Vector.any_eq_true, beq_iff_eq]
    exact ⟨fun ⟨i, hi, hz⟩ => ⟨⟨i, hi⟩, hz⟩, fun ⟨z, hz⟩ => ⟨z.val, z.isLt, hz⟩⟩
  have hmembers : ((s.members g).any fun a => (s.pairOf a).isSome) = true ↔ ∃ a ∈ s.members g, (s.pairOf a).isSome :=
    List.any_eq_true
  have hconflict : ((f.members.filterMap axisOfByte).any fun a => (s.groupOf a).any (· != g)) = true ↔
      ∃ a ∈ f.members.filterMap axisOfByte, ∃ h, s.groupOf a = some h ∧ h ≠ g := by
    simp only [List.any_eq_true, Option.any_eq_true, bne_iff_ne]
  have husable : ((f.members.filterMap axisOfByte).any fun a => !(s.usableAxis a)) = true ↔
      ∃ a ∈ f.members.filterMap axisOfByte, s.usableAxis a = false := by
    simp only [List.any_eq_true, Bool.not_eq_true']
  have hreferenced : ((s.members g).any fun a => !(f.members.filterMap axisOfByte).contains a && (s.pairOf a).isSome) = true ↔
      ∃ a ∈ s.members g, a ∉ f.members.filterMap axisOfByte ∧ (s.pairOf a).isSome := by
    simp only [List.any_eq_true, Bool.and_eq_true, Bool.not_eq_true', List.contains_eq_mem, decide_eq_false_iff_not]
  unfold writeGroup writeGroupChecked
  simp only [touchAll_sound _ _ _ h, Bool.and_eq_true, Bool.or_eq_true, hzones, hmembers, hconflict, husable, hreferenced]
  cases f.valid with
  | true =>
    cases f.inRange g <;> simp
  | false => simp

theorem storeGroup_pairOf (s : State) (g : GroupIx) (f : GroupFields) (a : AxisIx) :
    (s.storeGroup g f).pairOf a = s.pairOf a := by
  unfold State.storeGroup State.pairOf
  simp only [State.modCreep_tables, State.modTables_tables, Fin.getElem_fin, Vector.getElem_ofFn]
  unfold rewriteGroup
  repeat' split
  all_goals rfl

theorem storeGroup_group (s : State) (g : GroupIx) (f : GroupFields) (a : AxisIx) : (s.storeGroup g f).groupOf a =
    if f.valid = true ∧ a ∈ f.members.filterMap axisOfByte then some g
    else if s.groupOf a = some g then none else s.groupOf a := by
  simp only [storeGroup_groupOf, mem_axesOf]
  cases hv : f.valid with
  | true => simp only [GroupFields.stored_of_valid hv, true_and]
  | false => simp [GroupFields.stored_of_invalid hv, GroupFields.default]

/-- Settles O22: the checks of R11 in their order, and the record, the index and the verdict as R12 leaves them. -/
theorem groupWriteIsChecked : Obligations.GroupWriteIsChecked := by
  intro s q g f hq hs
  obtain ⟨t, hexec, hanswer⟩ := exec_answered_of hq nofun nofun (withIndex_natByte (by decide) g _ _)
  rw [writeGroup_sound f g (s := s.popRequest) (Sound.of_tables hs rfl)] at hanswer
  simp only [answered_ite] at hanswer
  exact ⟨t, hexec, hanswer, rfl, fun a => ⟨storeGroup_pairOf s g f a, storeGroup_group s g f a⟩, rfl, rfl⟩

end Sys2Proof.Machine
end

section
/-! PROOF. Writing pairs, extents, way-points, input map entries, the settings and the shadow table. -/

namespace Sys2Proof.Machine

/-! ## Pair entries -/

theorem writePairChecked_sound (f : PairFields) (p : PairIx) (a b : AxisIx) {s : State} (h : s.Sound) :
    writePairChecked f p a b s =
      if a = b ∨ s.usableAxis a = false ∨ s.usableAxis b = false ∨ s.groupOf a = none ∨
          s.groupOf a ≠ s.groupOf b ∨ f.alarmLimit = 0 ∨ f.tripLimit.toNat ≤ f.alarmLimit.toNat then .refuse s .badValue
      else if (∃ k, s.pairOf a = some k ∧ k ≠ p) ∨ ∃ k, s.pairOf b = some k ∧ k ≠ p then .refuse s .conflict
      else .ok (s.storePair p f) [] := by
  unfold writePairChecked
  simp only [touchAll_sound _ _ _ h, Bool.or_eq_true, Bool.not_eq_true', decide_eq_true_eq, Option.isNone_iff_eq_none,
    bne_iff_ne, beq_iff_eq, Option.any_eq_true, or_assoc]

theorem writePair_sound (f : PairFields) (p : PairIx) {s : State} (h : s.Sound) : writePair f p s =
    if s.lockedGroup (s.pairGroup p) = true ∨
        (f.valid = true ∧ ∃ a, axisOfByte f.lead = some a ∧ s.lockedGroup (s.groupOf a) = true) then .refuse s .locked
    else if f.valid = false then .ok (s.storePair p f) []
    else match axisOfByte f.lead, axisOfByte f.follow with
      | some a, some b => writePairChecked f p a b s
      | _, _ => .refuse s .badValue := by
  unfold writePair
  simp only [touch_sound _ _ _ h, Bool.or_eq_true, Bool.and_eq_true, Option.any_eq_true, Bool.not_eq_true'] <;> rfl

theorem storePair_group (s : State) (p : PairIx) (f : PairFields) (a : AxisIx) :
    (s.storePair p f).groupOf a = s.groupOf a := by
  unfold State.storePair State.groupOf
  simp only [State.modPair_tables, State.modTables_tables, Fin.getElem_fin, Vector.getElem_ofFn, rewritePair_group]

theorem storePair_pairOf (s : State) (p : PairIx) (f : PairFields) (a : AxisIx) : (s.storePair p f).pairOf a =
    if f.valid = true ∧ (f.lead = natByte a ∨ f.follow = natByte a) then some p
    else if s.pairOf a = some p then none else s.pairOf a := by
  unfold State.storePair State.pairOf
  simp only [State.modPair_tables, State.modTables_tables, Fin.getElem_fin, Vector.getElem_ofFn]
  unfold rewritePair
  simp only [Bool.and_eq_true, Bool.or_eq_true, beq_iff_eq]
  repeat' split
  all_goals rfl

/-- Settles O23: the checks of R14 in their order, and what an accepted write leaves (R15). -/
theorem pairWriteIsChecked : Obligations.PairWriteIsChecked := by
  intro s q p f hq hs
  obtain ⟨t, hexec, hanswer⟩ := exec_answered_of hq nofun nofun (withIndex_natByte (by decide) p _ _)
  have hpop : s.popRequest.Sound := Sound.of_tables hs rfl
  refine ⟨t, hexec, ?_, rfl, rfl, rfl, fun a => ⟨storePair_group s p f a, storePair_pairOf s p f a⟩⟩
  rw [writePair_sound f p hpop, answered_ite, answered_ite] at hanswer
  cases hlead : axisOfByte f.lead with
  | none =>
    rw [hlead] at hanswer
    exact hanswer
  | some a =>
    cases hfollow : axisOfByte f.follow with
    | none =>
      rw [hlead, hfollow] at hanswer
      exact hanswer
    | some b =>
      rw [hlead, hfollow] at hanswer
      dsimp only at hanswer
      rw [writePairChecked_sound f p a b hpop, answered_ite, answered_ite] at hanswer
      exact hanswer

/-! ## Extent entries -/

theorem ExtentFields.inRange_eq_false (f : ExtentFields) :
    f.inRange = false ↔ 64 ≤ f.axis.toNat ∨ 16 ≤ f.zone.toNat ∨ f.high.toInt < f.low.toInt := by
  rw [← Bool.not_eq_true]
  simp only [ExtentFields.inRange, Bool.and_eq_true, decide_eq_true_eq, not_and_or, Nat.not_lt, Int.not_le, or_assoc]

theorem writeExtent_sound (f : ExtentFields) (x : ExtentIx) {s : State} (h : s.Sound) : writeExtent f x s =
    if ((s.tables.extents[x].held.valid = true ∨ s.tables.extents[x].poisoned = true) ∧
          s.lockedAxis s.tables.extents[x].held.axis = true) ∨ (f.valid = true ∧ s.lockedAxis f.axis = true) then
      .refuse s .locked
    else if f.valid = true ∧ (64 ≤ f.axis.toNat ∨ 16 ≤ f.zone.toNat ∨ f.high.toInt < f.low.toInt) then
      .refuse s .badValue
    else .ok (s.modTables fun t => { t with extents := t.extents.set x (.fresh f.stored) }) [] := by
  unfold writeExtent
  simp only [touch_sound _ _ _ h, Bool.or_eq_true, Bool.and_eq_true, Bool.not_eq_true', ExtentFields.inRange_eq_false]

/-- Settles O24. -/
theorem extentWriteIsChecked : Obligations.ExtentWriteIsChecked := by
  intro s q x f hq hs
  obtain ⟨t, hexec, hanswer⟩ := exec_answered_of hq nofun nofun (withIndex_natByte (by decide) x _ _)
  rw [writeExtent_sound f x (s := s.popRequest) (Sound.of_tables hs rfl), answered_ite, answered_ite] at hanswer
  exact ⟨t, hexec, hanswer⟩

/-! ## Way-points and input map entries -/

theorem WaypointSlots.load_some (w : Waypoint) (r : WaypointSlots) :
    r.load (some w) = if r.live = none then ⟨some w, none⟩ else ⟨r.live, some w⟩ := by
  cases r with
  | mk live staged => cases live <;> rfl

theorem levelOfByte_eq_none {b : Byte} (h : 2 ≤ b.toNat) : levelOfByte b = none := by
  unfold levelOfByte
  rw [if_neg (by rintro rfl; exact absurd h (by decide)), if_neg (by rintro rfl; exact absurd h (by decide))]

theorem writeInput_some {level groups : Byte} {l : LineIx} {v : Level} (s : State) (h : levelOfByte level = some v) :
    writeInput level groups l s = .ok { s with
      inputs := s.inputs.set l ⟨s.inputs[l].held, v, groups⟩
      inFlight := s.inFlight ++
        (if s.inputs[l].held = v then
          ((groupsOf groups).filter fun g => s.permitState g != .tripped).map fun g =>
            (TripSender.tripUnit, ⟨g, ⟨.input, .line l⟩, none⟩)
        else []) } [] := by
  have hline : (upd s.inputs l fun r => { r with active := v, groups := groups })[l] = ⟨s.inputs[l].held, v, groups⟩ :=
    upd_get_same _ _ _
  unfold writeInput
  rw [h]
  dsimp only
  rw [evaluateLine_eq]
  simp only [hline, InputLine.isActive, beq_iff_eq]
  rfl

/-- Settles O25. -/
theorem waypointAndInputWrites : Obligations.WaypointAndInputWrites := by
  intro s q
  refine ⟨fun a w hq => ?_, fun l level groups hq => ?_⟩
  · obtain ⟨t, hexec, hanswer⟩ := exec_answered_of hq nofun nofun (withIndex_natByte (by decide) a _ _)
    refine ⟨t, hexec, ?_, ?_, ?_⟩
    · rintro rfl
      exact hanswer
    · rintro rfl
      exact hanswer
    · rintro v rfl
      simp only [writeWaypoint, upd, WaypointSlots.load_some] at hanswer
      exact hanswer
  · obtain ⟨t, hexec, hanswer⟩ := exec_answered_of hq nofun nofun (withIndex_natByte (by decide) l _ _)
    refine ⟨t, hexec, fun hlevel => ?_, fun v hv => ?_⟩
    · unfold writeInput at hanswer
      rw [levelOfByte_eq_none hlevel] at hanswer
      exact hanswer
    · rw [writeInput_some _ hv] at hanswer
      exact hanswer

/-! ## The settings record -/

theorem Settings.inRange_eq_false (f : Settings) : f.inRange = false ↔ f.cyclePeriod.toNat < 500 ∨
    20000 < f.cyclePeriod.toNat ∨ f.clSilence = 0 ∨ f.segSilence = 0 ∨ 8 < f.scrubRate.toNat := by
  rw [← Bool.not_eq_true]
  simp only [Settings.inRange, Bool.and_eq_true, decide_eq_true_eq, bne_iff_ne, not_and_or, not_not, Nat.not_le, or_assoc]

theorem validNotDisarmed_isSome (s : State) : s.validNotDisarmed.isSome = true ↔
    ∃ g : GroupIx, s.tables.groups[g].held.valid = true ∧ s.permitState g ≠ .disarmed := by
  unfold State.validNotDisarmed
  simp only [List.find?_isSome, List.mem_finRange, true_and, Bool.and_eq_true, bne_iff_ne]

theorem readGroups_sound (b : ReadingBlock) {s : State} (h : s.Sound) : s.readGroups b = s := touchAll_sound b _ s h

theorem writeSettings_sound (f : Settings) (k : Fin 1) {s : State} (h : s.Sound) : writeSettings f k s =
    if f.cyclePeriod.toNat < 500 ∨ 20000 < f.cyclePeriod.toNat ∨ f.clSilence = 0 ∨ f.segSilence = 0 ∨
        8 < f.scrubRate.toNat then .refuse s .badValue
    else if f.cyclePeriod ≠ s.settings.cyclePeriod ∧
        ∃ g : GroupIx, s.tables.groups[g].held.valid = true ∧ s.permitState g ≠ .disarmed then .refuse s .notDisarmed
    else .ok { s with settings := f } [] := by
  unfold writeSettings
  simp only [readGroups_sound _ h, Bool.not_eq_true', Settings.inRange_eq_false, validNotDisarmed_isSome]
  by_cases hp : f.cyclePeriod = s.settings.cyclePeriod <;> simp [hp]

/-- Settles O26. -/
theorem settingsWriteIsChecked : Obligations.SettingsWriteIsChecked := by
  intro s q f hq hs
  have hwork : requestWork (.writeSettings 0 f) s.popRequest = writeSettings f 0 s.popRequest := rfl
  obtain ⟨t, hexec, hanswer⟩ := exec_answered_of hq nofun nofun hwork
  rw [writeSettings_sound f 0 (s := s.popRequest) (Sound.of_tables hs rfl), answered_ite, answered_ite] at hanswer
  exact ⟨t, hexec, hanswer⟩

/-! ## The schedule tables -/

theorem schedule_default (k : Fin 32) : Schedule.defaultTable[k] =
    if k.val ∈ [0, 8, 16, 24] then .reply
    else if k.val ∈ [4, 12, 20, 28] then .report
    else if k.val ∈ [1, 6, 11, 17, 22, 27] then .seg 0
    else if k.val ∈ [2, 7, 13, 18, 23, 29] then .seg 1
    else if k.val ∈ [3, 9, 14, 19, 25, 30] then .seg 2
    else .seg 3 := by
  revert k
  decide

/-- Settles O27. -/
theorem shadowTableIsWrittenAndRead : Obligations.ShadowTableIsWrittenAndRead := by
  refine ⟨fun s q i source hq => ?_, fun s q i hq => ?_, schedule_default, rfl, rfl⟩
  · obtain ⟨t, hexec, hanswer⟩ := exec_answered hq nofun nofun
    refine ⟨t, hexec, fun hi => ?_, ?_⟩
    · rw [requestWork_badIndex (d := .writeSchedule i source) (decide_eq_true hi)] at hanswer
      exact hanswer
    · rintro k rfl
      have hwork : requestWork (.writeSchedule (natByte k) source) s.popRequest = writeSchedule source k s.popRequest :=
        withIndex_natByte (by decide) k _ _
      rw [hwork] at hanswer
      unfold writeSchedule at hanswer
      rw [answered_ite] at hanswer
      cases hsrc : Source.ofByte source with
      | none =>
        rw [hsrc] at hanswer
        exact hanswer
      | some src =>
        rw [hsrc] at hanswer
        exact hanswer
  · obtain ⟨t, hexec, hanswer⟩ := exec_answered hq nofun nofun
    refine ⟨t, hexec, fun hi => ?_, ?_⟩
    · rw [requestWork_badIndex (d := .readSchedule i) (decide_eq_true hi)] at hanswer
      exact hanswer
    · rintro k rfl
      have hwork : requestWork (.readSchedule (natByte k)) s.popRequest = readSchedule k s.popRequest :=
        withIndex_natByte (by decide) k _ _
      rw [hwork] at hanswer
      exact hanswer

end Sys2Proof.Machine
end

section
/-! PROOF. Motion permits: the keys, PARK, FORCE_TRIP, CLEAR_TRIP, and a trip request by the state of its group. -/

namespace Sys2Proof.Machine

/-! ## Trip requests by the state of the group -/

theorem trip_disarmed {s : State} {r : TripRequest} (h : s.permitState r.group = .disarmed)
    (hc : r.cause.cause.commanded = false) : s.trip r = s := by
  change s.tripWith (State.takeTrip 8) r = s
  unfold State.tripWith
  rw [h]
  exact if_neg (by rw [hc]; decide)

theorem trip_tripped {s : State} {r : TripRequest} (h : s.permitState r.group = .tripped) :
    s.trip r = s.modPermit r.group fun p => { p with further := satInc p.further } := by
  change s.tripWith (State.takeTrip 8) r = _
  unfold State.tripWith
  rw [h]

/-- The group's permit and brake-release line stand as its trip has left them, but for the causes counted since. -/
structure TrippedBy (r : TripRequest) (s : State) : Prop where
  state : s.permitState r.group = .tripped
  cause : s.permits[r.group].cause = some r.cause
  origin : s.permits[r.group].origin = r.origin
  age : s.permits[r.group].age = 0
  lapse : s.permits[r.group].lapse = 0
  halfDone : s.permits[r.group].halfDone = false
  brk : s.brk[r.group] = false

theorem TrippedBy.of_eq {r : TripRequest} {s t : State} (h : TrippedBy r s) (hp : t.permits[r.group] = s.permits[r.group])
    (hb : t.brk[r.group] = s.brk[r.group]) : TrippedBy r t where
  state := by
    unfold State.permitState
    rw [hp]
    exact h.state
  cause := by rw [hp, h.cause]
  origin := by rw [hp, h.origin]
  age := by rw [hp, h.age]
  lapse := by rw [hp, h.lapse]
  halfDone := by rw [hp, h.halfDone]
  brk := by rw [hb, h.brk]

theorem trippedBy_tripped (r : TripRequest) (s : State) : TrippedBy r (s.tripped r) := by
  have hp : (s.tripped r).permits[r.group] = s.permits[r.group].toTripped r := upd_get_same _ _ _
  have hb : (s.tripped r).brk[r.group] = false := by
    change (s.brk.set r.group false)[r.group] = false
    rw [set_get, if_pos rfl]
  exact ⟨by unfold State.permitState; rw [hp]; rfl, by rw [hp]; rfl, by rw [hp]; rfl, by rw [hp]; rfl, by rw [hp]; rfl,
    by rw [hp]; rfl, hb⟩

/-- Nothing inside the event undoes a trip: a group once TRIPPED only counts further causes. -/
theorem trippedBy_tripClosed (r : TripRequest) : TripClosed (TrippedBy r) where
  close := fun sg s h => by
    rw [closeCheck_eq]
    exact h.of_eq rfl rfl
  post := fun _ _ h => h.of_eq rfl rfl
  corrected := fun _ _ _ h => h.of_eq rfl rfl
  poisoned := fun _ _ _ h => h.of_eq rfl rfl
  drop := fun _ _ h => h.of_eq rfl rfl
  stop := fun _ _ _ h => h.of_eq rfl rfl
  purge := fun _ _ h => h.of_eq rfl rfl
  creepEnd := fun _ _ _ _ _ h => h.of_eq rfl rfl
  record := fun _ _ _ _ h => h.of_eq rfl rfl
  send := fun _ _ h => h.of_eq rfl rfl
  draw := fun _ h => h.of_eq rfl rfl
  toTripped := fun r' s hn h => by
    have hne : r'.group ≠ r.group := by
      intro heq
      rw [heq] at hn
      exact hn h.state
    refine h.of_eq (upd_get_ne _ hne _) ?_
    change (s.brk.set r'.group false)[r.group] = _
    rw [set_get, if_neg hne]
  further := fun g s _ h => by
    have hp : (s.modPermit g fun p => { p with further := satInc p.further }).permits[r.group] =
        { s.permits[r.group] with further := if g = r.group then satInc s.permits[r.group].further
          else s.permits[r.group].further } := by
      change (upd s.permits g _)[r.group] = _
      rw [upd_get]
      split
      · next hg => subst hg; rfl
      · rfl
    exact ⟨by unfold State.permitState; rw [hp]; exact h.state, by rw [hp]; exact h.cause, by rw [hp]; exact h.origin,
      by rw [hp]; exact h.age, by rw [hp]; exact h.lapse, by rw [hp]; exact h.halfDone, h.brk⟩

theorem transition_trippedBy {trip : TripRequest → State → State} {r : TripRequest}
    (ht : ∀ r', Keeps (TrippedBy r) (trip r')) (s : State) : TrippedBy r (s.transition trip r) := by
  have h := trippedBy_tripClosed r
  have hstart : TrippedBy r ((s.tripped r).inFreeOrder (((s.tripped r).checkedSegments r.group).map some ++ [none])).2 :=
    h.inFreeOrder _ _ (trippedBy_tripped r s)
  refine keeps_foldl _ (fun u job hu => ?_) _ _ hstart
  cases job with
  | some sg => exact h.abortChecks _ _ u hu
  | none => exact h.tripUnitWork ht r _ u hu

theorem trip_trippedBy {s : State} {r : TripRequest} (h : s.tripsOn r) : TrippedBy r (s.trip r) := by
  rw [trip_eq_transition h]
  exact transition_trippedBy ((trippedBy_tripClosed r).takeTrip 8) s

theorem trip_live {s : State} {g : GroupIx} {c : TripCause} {o : Option GroupIx} (h : s.permitState g = .live) :
    TrippedBy ⟨g, c, o⟩ (s.trip ⟨g, c, o⟩) := trip_trippedBy (.inr (.inl h))

/-! ## The oldest request of a sender -/

theorem takeFirstFrom_append {w : TripSender} {before after : List (TripSender × TripRequest)} {r : TripRequest}
    (h : ∀ p ∈ before, p.1 ≠ w) : takeFirstFrom w (before ++ (w, r) :: after) = some (r, before ++ after) := by
  induction before with
  | nil => exact if_pos rfl
  | cons p l ih =>
    have hp : p.1 ≠ w := h p List.mem_cons_self
    simp only [List.cons_append, takeFirstFrom, if_neg hp, ih fun x hx => h x (List.mem_cons_of_mem _ hx), Option.map_some]

theorem resetReplyWaits_eq_false {s : State} (h : ∀ a ∈ s.cl.replies, a.code = 17 → a.status ≠ .ok) :
    s.resetReplyWaits = false := by
  simp only [State.resetReplyWaits, List.any_eq_false, Reply.acceptsReset, Bool.and_eq_true, beq_iff_eq, not_and]
  exact h

theorem holdsRequests_eq_false {w : TripSender} {s : State} (hr : s.resets = [])
    (h : w = .resetEvaluation → s.resetReplyWaits = false) : s.holdsRequests w = false := by
  unfold State.holdsRequests
  rw [hr]
  simp only [List.isEmpty_nil, Bool.not_true, Bool.false_or, Bool.and_eq_false_imp, beq_iff_eq]
  exact h

theorem execTripRequest_held {w : TripSender} {s : State} (h : s.holdsRequests w = true) :
    exec (.tripRequest w) s = .next s := congrArg Host.Outcome.next (if_pos h)

theorem commanded_iff (c : Cause) : c.commanded = true ↔ c = .forced ∨ c = .input ∨ c = .propagated := by
  cases c <;> decide

/-- Settles O33. -/
theorem tripRequestFollowsTable : Obligations.TripRequestFollowsTable := by
  refine ⟨fun s r => ⟨trip_disarmed, trip_tripped, fun h => ?_⟩, fun s w before after r hr hflight hbefore hw => ?_,
    fun s w hr => ?_, fun s a ha hcode hok => ?_, commanded_iff⟩
  · obtain ⟨hstate, hcause, horigin, hage, hlapse, hhalf, hbrk⟩ := trip_trippedBy h
    exact ⟨Quiet.trip r s, hstate, hcause, horigin, hage, hlapse, hhalf, hbrk⟩
  · have hheld : s.holdsRequests w = false := holdsRequests_eq_false hr fun h => resetReplyWaits_eq_false (hw h)
    change Host.Outcome.next (if s.holdsRequests w = true then s else _) = _
    rw [if_neg (by rw [hheld]; decide), hflight, takeFirstFrom_append hbefore]
  · refine execTripRequest_held ?_
    unfold State.holdsRequests
    cases hl : s.resets with
    | nil => exact absurd hl hr
    | cons => rfl
  · refine execTripRequest_held ?_
    have hwaits : s.resetReplyWaits = true :=
      List.any_eq_true.mpr ⟨a, ha, by simp only [Reply.acceptsReset, hcode, hok]; rfl⟩
    unfold State.holdsRequests
    rw [hwaits]
    simp

/-! ## FORCE_TRIP -/

theorem forced_tripsOn {s : State} {g : GroupIx} {o : Option GroupIx} (h : s.permitState g ≠ .tripped) :
    s.tripsOn ⟨g, ⟨.forced, .none⟩, o⟩ := by
  unfold State.tripsOn
  dsimp only
  cases hstate : s.permitState g with
  | disarmed => exact .inr (.inr ⟨rfl, rfl⟩)
  | primed => exact .inl rfl
  | live => exact .inr (.inl rfl)
  | tripped => exact absurd hstate h

/-- Settles O32: FORCED is commanded, so it trips a group in any state but TRIPPED, where it is counted. -/
theorem forceTripTripsAnyGroup : Obligations.ForceTripTripsAnyGroup := by
  intro s q g hq
  obtain ⟨t, hexec, hanswer⟩ := exec_answered_of hq nofun nofun (withIndex_natByte (by decide) g _ _)
  refine ⟨t, _, hexec, rfl, Quiet.trip _ _, ?_, fun h => trip_tripped h, fun h => ?_, hanswer⟩
  · by_cases h : s.popRequest.permitState g = .tripped
    · rw [trip_tripped h]
      unfold State.permitState
      rw [State.modPermit_permits, upd_get_same]
      exact h
    · exact (trip_trippedBy (forced_tripsOn h)).state
  · exact (trip_trippedBy (forced_tripsOn (s := s.popRequest) (o := none) h)).cause

end Sys2Proof.Machine
end

section
/-! PROOF. The keys, arming, PARK and CLEAR_TRIP by the state of the permit. -/

namespace Sys2Proof.Machine

/-! ## A permit that changes other than to TRIPPED -/

theorem changePermit_eq (g : GroupIx) (st : PermitState) (lapse : Word16) (why : PermitReason) (s : State) :
    s.changePermit g st lapse why = { s with
      permits := upd s.permits g (fun p => { p with state := st, lapse := lapse, halfDone := false })
      brk := s.brk.set g (st == .live)
      cl := s.cl.post s.postContext (.permitChange g (s.permitState g) st why lapse) } := rfl

theorem Quiet.postContext {s t : State} (h : Quiet s t) : t.postContext = s.postContext := by
  unfold State.postContext
  rw [h.settings, h.timer]

theorem upd_upd {α : Type} {n : Nat} (v : Vector α n) (i : Fin n) (f f' : α → α) :
    upd (upd v i f) i f' = upd v i (fun x => f' (f x)) := by
  refine Vector.ext fun k hk => ?_
  change (upd (upd v i f) i f')[(⟨k, hk⟩ : Fin n)] = (upd v i fun x => f' (f x))[(⟨k, hk⟩ : Fin n)]
  simp only [upd_get]
  split <;> rfl

/-! ## Keys -/

/-- K-ARM to a group that is not DISARMED. -/
theorem presentArm_tripped {g : GroupIx} {s : State} (h : s.permitState g = .tripped) :
    presentArm g s = permitAnswer g .tripped [] s := by
  unfold presentArm
  rw [h]

theorem presentArm_primed {g : GroupIx} {s : State} (h : s.permitState g = .primed) :
    presentArm g s = permitAnswer g .ok [] s := by
  unfold presentArm
  rw [h]

theorem presentArm_first {g : GroupIx} {s : State} (h : s.permitState g = .live) (hhalf : s.permits[g].halfDone = false) :
    presentArm g s = permitAnswer g .ok [] (s.modPermit g fun p => { p with halfDone := true }) := by
  unfold presentArm
  rw [h]
  exact if_neg (Bool.eq_false_iff.mp hhalf)

theorem presentArm_again {g : GroupIx} {s : State} (h : s.permitState g = .live) (hhalf : s.permits[g].halfDone = true) :
    presentArm g s = keySequence g s := by
  unfold presentArm
  rw [h]
  exact if_pos hhalf

theorem presentRun_tripped {g : GroupIx} {s : State} (h : s.permitState g = .tripped) :
    presentRun g s = permitAnswer g .tripped [] s := by
  unfold presentRun
  rw [h]

theorem presentRun_disarmed {g : GroupIx} {s : State} (h : s.permitState g = .disarmed) :
    presentRun g s = permitAnswer g .badKey [] s := by
  unfold presentRun
  rw [h]

theorem presentRun_primed {g : GroupIx} {s : State} (h : s.permitState g = .primed) : presentRun g s =
    if (s.touch .permit (.group g)).permitState g = .primed then permitAnswer g .ok []
      ((s.touch .permit (.group g)).changePermit g .live
        (s.touch .permit (.group g)).tables.groups[g].held.serviceInterval .run)
    else permitAnswer g .tripped [] (s.touch .permit (.group g)) := by
  unfold presentRun
  rw [h]

theorem presentRun_second {g : GroupIx} {s : State} (h : s.permitState g = .live) (hhalf : s.permits[g].halfDone = true) :
    presentRun g s =
      if (s.touch .permit (.group g)).permitState g = .live then permitAnswer g .ok []
        ((s.touch .permit (.group g)).modPermit g fun p => { p with
          lapse := (s.touch .permit (.group g)).tables.groups[g].held.serviceInterval, halfDone := false })
      else permitAnswer g .tripped [] (s.touch .permit (.group g)) := by
  unfold presentRun
  rw [h]
  exact if_pos hhalf

theorem presentRun_early {g : GroupIx} {s : State} (h : s.permitState g = .live) (hhalf : s.permits[g].halfDone = false) :
    presentRun g s = keySequence g s := by
  unfold presentRun
  rw [h]
  exact if_neg (Bool.eq_false_iff.mp hhalf)

theorem presentOther_refused {g : GroupIx} {s : State} (h : s.permitState g = .disarmed ∨ s.permitState g = .primed) :
    presentOther g s = permitAnswer g .badKey [] s := by
  unfold presentOther
  rcases h with h | h <;> rw [h]

theorem presentOther_tripped {g : GroupIx} {s : State} (h : s.permitState g = .tripped) :
    presentOther g s = permitAnswer g .tripped [] s := by
  unfold presentOther
  rw [h]

theorem presentOther_live {g : GroupIx} {s : State} (h : s.permitState g = .live) :
    presentOther g s = keySequence g s := by
  unfold presentOther
  rw [h]

/-- A key out of service order trips the LIVE group, and the reply shows it TRIPPED (R96). -/
theorem keySequence_given {q : Request} {g : GroupIx} {s t : State} (h : s.permitState g = .live)
    (ha : Answered q (keySequence g s).state (keySequence g s).status (keySequence g s).parts t) :
    ∃ u, u = s.trip ⟨g, ⟨.keySequence, .none⟩, none⟩ ∧ u.permitState g = .tripped ∧
      Answered q u .badKey [permitData u g []] t := ⟨_, rfl, (trip_live h).state, ha⟩

/-- Settles O28. -/
theorem keysFollowTable : Obligations.KeysFollowTable := by
  intro s q g
  refine ⟨fun hq _ => ?_, fun hq => ?_, fun hq => ?_⟩
  · obtain ⟨t, hexec, hanswer⟩ := exec_answered_of hq nofun nofun (withIndex_natByte (by decide) g _ _)
    refine ⟨t, hexec, fun h => ?_, fun h => ?_, fun h hhalf => ?_, fun h hhalf => ?_⟩
    · rw [presentArm_tripped (s := s.popRequest) h] at hanswer
      exact hanswer
    · rw [presentArm_primed (s := s.popRequest) h] at hanswer
      exact hanswer
    · rw [presentArm_first (s := s.popRequest) h hhalf] at hanswer
      have hdata : permitData (s.popRequest.modPermit g fun p => { p with halfDone := true }) g [] = permitData s g [] := by
        unfold permitData State.permitState
        rw [State.modPermit_permits, upd_get_same]
        rfl
      rw [← hdata]
      exact hanswer
    · rw [presentArm_again (s := s.popRequest) h hhalf] at hanswer
      exact keySequence_given (s := s.popRequest) h hanswer
  · obtain ⟨t, hexec, hanswer⟩ := exec_answered_of hq nofun nofun (withIndex_natByte (by decide) g _ _)
    refine ⟨t, _, hexec, rfl, fun h => ?_, fun h => ?_, fun h hu => ?_, fun h hhalf hu => ?_, fun h hu => ?_,
      fun h hhalf => ?_⟩
    · rw [presentRun_tripped (s := s.popRequest) h] at hanswer
      exact hanswer
    · rw [presentRun_disarmed (s := s.popRequest) h] at hanswer
      exact hanswer
    · rw [presentRun_primed (s := s.popRequest) h, if_pos hu] at hanswer
      refine ⟨_, rfl, rfl, ?_, hanswer⟩
      have hctx : (s.popRequest.touch .permit (.group g)).postContext = s.postContext := (Quiet.touch _ _ _).postContext
      rw [changePermit_eq, hu, hctx]
      rfl
    · rw [presentRun_second (s := s.popRequest) h hhalf, if_pos hu] at hanswer
      exact ⟨_, rfl, hanswer⟩
    · rcases h with h | ⟨h, hhalf⟩
      · rw [presentRun_primed (s := s.popRequest) h, if_neg (by rw [hu]; decide)] at hanswer
        exact hanswer
      · rw [presentRun_second (s := s.popRequest) h hhalf, if_neg (by rw [hu]; decide)] at hanswer
        exact hanswer
    · rw [presentRun_early (s := s.popRequest) h hhalf] at hanswer
      exact keySequence_given (s := s.popRequest) h hanswer
  · obtain ⟨t, hexec, hanswer⟩ := exec_answered_of hq nofun nofun (withIndex_natByte (by decide) g _ _)
    refine ⟨t, hexec, fun h => ?_, fun h => ?_, fun h => ?_⟩
    · rw [presentOther_tripped (s := s.popRequest) h] at hanswer
      exact hanswer
    · rw [presentOther_refused (s := s.popRequest) h] at hanswer
      exact hanswer
    · rw [presentOther_live (s := s.popRequest) h] at hanswer
      exact keySequence_given (s := s.popRequest) h hanswer

/-! ## Arming -/

theorem arming_sound (g : GroupIx) {s : State} (h : s.Sound) : arm g s =
    if s.tables.groups[g].held.valid = false ∧ s.tables.groups[g].poisoned = false then permitAnswer g .badIndex [] s
    else match (EntryRef.group g :: s.belongings g).find? s.tables.isPoisoned with
      | some e => permitAnswer g .poisoned (Subject.entry e).bytes s
      | none => armChecked g s := by
  unfold arm
  simp only [touch_sound _ _ _ h, touchAll_sound _ _ _ h, Bool.and_eq_true, Bool.not_eq_true'] <;> rfl

theorem presentArm_disarmed {g : GroupIx} {s : State} (h : s.permitState g = .disarmed) : presentArm g s = arm g s := by
  unfold presentArm
  rw [h]

/-- What a change of the permit from a known state leaves (R94, R99, R108). -/
theorem changePermit_from {g : GroupIx} {old st : PermitState} {lapse : Word16} {why : PermitReason} {s : State}
    (h : s.permitState g = old) : s.changePermit g st lapse why = { s with
      permits := (s.changePermit g st lapse why).permits
      brk := s.brk.set g (st == .live)
      cl := s.cl.post s.postContext (.permitChange g old st why lapse) } := by
  rw [← h]
  rfl

/-- Steps 3 to 7 of R94 and the arming, as the reply shows them. -/
theorem armChecked_given {q : Request} {g : GroupIx} {s t : State} (hstate : s.permitState g = .disarmed)
    (ha : Answered q (armChecked g s).state (armChecked g s).status (armChecked g s).parts t) :
    match (s.memberList g).find? fun a => !s.axisRec[a].checked with
    | some a => Answered q s .unchecked [permitData s g [natByte a]] t
    | none => match (s.memberList g).find? fun a => s.axisRec[a].lost with
      | some a => Answered q s .notAtRest [permitData s g [natByte a]] t
      | none => match s.activeLineFor g with
        | some l => Answered q s .inputActive [permitData s g [natByte l]] t
        | none =>
          if s.creep[g].state = .running then Answered q s .busy [permitData s g []] t
          else if s.tables.groups[g].held.creepRequired = true ∧ s.creep[g].verdict ≠ .pass then
            Answered q s .creepRequired [permitData s g [s.creep[g].verdict.code]] t
          else ∃ u, u = s.changePermit g .primed s.tables.groups[g].held.primeWindow .armed ∧
            u.permits = upd s.permits g (fun p => { p with
              state := .primed, lapse := s.tables.groups[g].held.primeWindow, halfDone := false }) ∧
            u = { s with
              permits := u.permits, brk := s.brk.set g false
              cl := s.cl.post s.postContext
                (.permitChange g .disarmed .primed .armed s.tables.groups[g].held.primeWindow) } ∧
            Answered q u .ok [permitData u g []] t := by
  unfold armChecked at ha
  dsimp only at ha
  cases hunchecked : (s.memberList g).find? fun a => !s.axisRec[a].checked with
  | some a => rw [hunchecked] at ha; exact ha
  | none =>
  rw [hunchecked] at ha
  cases hlost : (s.memberList g).find? fun a => s.axisRec[a].lost with
  | some a => rw [hlost] at ha; exact ha
  | none =>
  rw [hlost] at ha
  cases hline : s.activeLineFor g with
  | some l => rw [hline] at ha; exact ha
  | none =>
  rw [hline] at ha
  simp only [answered_ite, Bool.and_eq_true, bne_iff_ne] at ha ⊢
  split
  · next hrun => rw [if_pos hrun] at ha; exact ha
  next hrun =>
  rw [if_neg hrun] at ha
  split
  · next hcreep => rw [if_pos hcreep] at ha; exact ha
  next hcreep =>
  rw [if_neg hcreep] at ha
  exact ⟨_, rfl, rfl, changePermit_from hstate, ha⟩

/-- Settles O29: each condition of R94 is tested once those before it hold. -/
theorem armingTestsConditionsInOrder : Obligations.ArmingTestsConditionsInOrder := by
  intro s q g hq hs hstate
  obtain ⟨t, hexec, hanswer⟩ := exec_answered_of hq nofun nofun (withIndex_natByte (by decide) g _ _)
  refine ⟨t, hexec, ?_⟩
  rw [presentArm_disarmed (s := s.popRequest) hstate, arming_sound g (s := s.popRequest) (Sound.of_tables hs rfl),
    answered_ite] at hanswer
  split
  · next hinvalid => exact (if_pos hinvalid).mp hanswer
  next hvalid =>
  replace hanswer := (if_neg hvalid).mp hanswer
  cases hpoisoned : (EntryRef.group g :: s.belongings g).find? s.tables.isPoisoned with
  | some e =>
    rw [show (EntryRef.group g :: s.popRequest.belongings g).find? s.popRequest.tables.isPoisoned = some e from hpoisoned]
      at hanswer
    exact hanswer
  | none =>
    rw [show (EntryRef.group g :: s.popRequest.belongings g).find? s.popRequest.tables.isPoisoned = none from hpoisoned]
      at hanswer
    exact armChecked_given (s := s.popRequest) hstate hanswer

end Sys2Proof.Machine
end

section
/-! PROOF. PARK, with the requests of the samples before it, and CLEAR_TRIP. -/

namespace Sys2Proof.Machine

/-! ## At rest, and braked -/

theorem recent_any (r : AxisRecord) (q : LatestSample → Bool) : r.recent.any q = true ↔
    ∃ l, r.latest = some l ∧ (r.arrived = true ∨ r.missCount = 0) ∧ q l = true := by
  unfold AxisRecord.recent
  simp only [Bool.or_eq_true, beq_iff_eq]
  split
  · next h => simp only [Option.any_eq_true, h, true_and]
  · next h =>
    refine iff_of_false (by simp) ?_
    rintro ⟨l, -, hrecent, -⟩
    exact h hrecent

theorem atRest_iff (r : AxisRecord) : r.atRest = true ↔
    ∃ l, r.latest = some l ∧ (r.arrived = true ∨ r.missCount = 0) ∧ l.flags.atRest = true := recent_any r _

theorem braked_iff (r : AxisRecord) : r.braked = true ↔ r.lost = false ∧
    ∃ l, r.latest = some l ∧ (r.arrived = true ∨ r.missCount = 0) ∧ l.flags.atRest = true ∧ l.flags.brakeSet = true := by
  unfold AxisRecord.braked
  simp only [Bool.and_eq_true, Bool.not_eq_true', recent_any]

/-! ## The requests that samples have sent -/

theorem fromSampleTo_iff (g : GroupIx) (w : TripSender) (r : TripRequest) : fromSampleTo g (w, r) = true ↔
    w = .sampleMonitor ∧ r.group = g ∧ r.cause.cause ∈ [Cause.driveFault, .overtravel, .overspeed, .zoneIntrusion] := by
  unfold fromSampleTo
  simp only [Bool.and_eq_true, beq_iff_eq, and_assoc]
  cases r.cause.cause <;> simp

theorem splitSampled_cons (g : GroupIx) (p : TripSender × TripRequest) (l : List (TripSender × TripRequest)) :
    splitSampled g (p :: l) = if p.1 = .sampleMonitor ∧ ∃ x ∈ p :: l, fromSampleTo g x = true then
      (p.2 :: (splitSampled g l).1, (splitSampled g l).2) else ((splitSampled g l).1, p :: (splitSampled g l).2) := by
  simp only [splitSampled, Bool.and_eq_true, beq_iff_eq, List.any_eq_true]

theorem splitSampled_one {g : GroupIx} {r : TripRequest} {before after : List (TripSender × TripRequest)}
    (hr : fromSampleTo g (.sampleMonitor, r) = true) (hbefore : ∀ p ∈ before, p.1 ≠ .sampleMonitor)
    (hafter : ∀ p ∈ after, fromSampleTo g p = false) :
    splitSampled g (before ++ (.sampleMonitor, r) :: after) = ([r], before ++ after) := by
  induction before with
  | nil =>
    rw [List.nil_append, splitSampled_cons, if_pos ⟨rfl, _, List.mem_cons_self, hr⟩, splitSampled_none g after hafter]
    rfl
  | cons p l ih =>
    rw [List.cons_append, splitSampled_cons, if_neg fun h => hbefore p List.mem_cons_self h.1,
      ih fun x hx => hbefore x (List.mem_cons_of_mem _ hx)]
    rfl

theorem mem_splitSampled {g : GroupIx} {p : TripSender × TripRequest} {l : List (TripSender × TripRequest)} (hp : p ∈ l)
    (hs : fromSampleTo g p = true) : p.2 ∈ (splitSampled g l).1 := by
  induction l with
  | nil => cases hp
  | cons x l ih =>
    rw [splitSampled_cons]
    rcases List.mem_cons.mp hp with rfl | hmem
    · have hfrom : p.1 = .sampleMonitor := ((fromSampleTo_iff g p.1 p.2).mp hs).1
      rw [if_pos ⟨hfrom, p, hp, hs⟩]
      exact List.mem_cons_self
    · have := ih hmem
      split
      · exact List.mem_cons_of_mem _ this
      · exact this

theorem takeSampled_armed {g : GroupIx} {s : State} (h : s.permitState g = .primed ∨ s.permitState g = .live) :
    s.takeSampled g = (splitSampled g s.inFlight).1.foldl (fun s r => s.trip r)
      { s with inFlight := (splitSampled g s.inFlight).2 } := by
  unfold State.takeSampled
  rcases h with h | h <;> rw [h]

/-- The state of a permit is one that TRIPPED satisfies: a trip of any group keeps it so. -/
theorem permitState_tripClosed (g : GroupIx) {A : PermitState → Prop} (hA : A .tripped) :
    TripClosed fun s => A (s.permitState g) where
  close := fun sg s h => by
    rw [closeCheck_eq]
    exact h
  toTripped := fun r s _ h => by
    change A (upd s.permits r.group _)[g].state
    rw [upd_get]
    split
    · exact hA
    · exact h
  further := fun g' s _ h => by
    change A (upd s.permits g' _)[g].state
    rw [upd_get]
    split
    · next hg => subst hg; exact h
    · exact h
  post := fun _ _ h => h
  corrected := fun _ _ _ h => h
  poisoned := fun _ _ _ h => h
  drop := fun _ _ h => h
  stop := fun _ _ _ h => h
  purge := fun _ _ h => h
  creepEnd := fun _ _ _ _ _ h => h
  record := fun _ _ _ _ h => h
  send := fun _ _ h => h
  draw := fun _ h => h

theorem trip_keeps_tripped {g : GroupIx} (r : TripRequest) {s : State} (h : s.permitState g = .tripped) :
    (s.trip r).permitState g = .tripped := (permitState_tripClosed g (A := (· = .tripped)) rfl).trip r s h

theorem trip_armed_tripped {r : TripRequest} {s : State} (h : s.permitState r.group ≠ .disarmed) :
    (s.trip r).permitState r.group = .tripped := by
  cases hstate : s.permitState r.group with
  | disarmed => exact absurd hstate h
  | primed => exact (trip_trippedBy (.inl hstate)).state
  | live => exact (trip_trippedBy (.inr (.inl hstate))).state
  | tripped => exact trip_keeps_tripped r hstate

theorem trips_keep_tripped {g : GroupIx} (l : List TripRequest) {s : State} (h : s.permitState g = .tripped) :
    (l.foldl (fun s r => s.trip r) s).permitState g = .tripped :=
  keeps_foldl (P := fun s => s.permitState g = .tripped) _ (fun _ r hs => trip_keeps_tripped r hs) l s h

/-- A request to a group that is not DISARMED, among requests taken in a row, leaves it TRIPPED. -/
theorem trips_tripped {r : TripRequest} (l : List TripRequest) (hr : r ∈ l) (s : State)
    (h : s.permitState r.group ≠ .disarmed) : (l.foldl (fun s r => s.trip r) s).permitState r.group = .tripped := by
  induction l generalizing s with
  | nil => cases hr
  | cons x l ih =>
    rw [List.foldl_cons]
    rcases List.mem_cons.mp hr with rfl | hmem
    · exact trips_keep_tripped l (trip_armed_tripped h)
    · exact ih hmem _ ((permitState_tripClosed r.group (A := (· ≠ .disarmed)) nofun).trip x s h)

theorem takeSampled_tripped {g : GroupIx} {s : State} (h : s.permitState g = .primed ∨ s.permitState g = .live)
    (hsent : ∃ p ∈ s.inFlight, fromSampleTo g p = true) : (s.takeSampled g).permitState g = .tripped := by
  obtain ⟨p, hp, hfrom⟩ := hsent
  obtain ⟨-, hgroup, -⟩ := (fromSampleTo_iff g p.1 p.2).mp hfrom
  rw [takeSampled_armed h, ← hgroup]
  refine trips_tripped _ (hgroup ▸ mem_splitSampled hp hfrom) _ ?_
  change s.permitState p.2.group ≠ .disarmed
  rw [hgroup]
  rcases h with h | h <;> rw [h] <;> decide

theorem Quiet.takeSampled (g : GroupIx) (s : State) : Quiet s (s.takeSampled g) := by
  unfold State.takeSampled
  split
  · exact .refl s
  · exact .refl s
  all_goals
    exact keeps_foldl (P := Quiet s) _ (fun u r hu => hu.trans (Quiet.trip r u)) _ _
      ⟨rfl, rfl, rfl, rfl, rfl, rfl, rfl, rfl, rfl, rfl, rfl, rfl, rfl, rfl, rfl⟩

/-! ## PARK -/

theorem parkTaken_disarmed {g : GroupIx} {s : State} (h : s.permitState g = .disarmed) :
    parkTaken g s = permitAnswer g .ok [] s := by
  unfold parkTaken
  rw [h]

theorem parkTaken_tripped {g : GroupIx} {s : State} (h : s.permitState g = .tripped) :
    parkTaken g s = permitAnswer g .tripped [] s := by
  unfold parkTaken
  rw [h]

theorem parkTaken_primed {g : GroupIx} {s : State} (h : s.permitState g = .primed) :
    parkTaken g s = permitAnswer g .ok [] (s.changePermit g .disarmed 0 .parked) := by
  unfold parkTaken
  rw [h]

theorem parkTaken_live {g : GroupIx} {s : State} (h : s.permitState g = .live) (hs : s.Sound) : parkTaken g s =
    match (s.memberList g).find? fun a => !s.axisRec[a].atRest with
    | some a => permitAnswer g .notAtRest [natByte a] s
    | none => permitAnswer g .ok [] ((s.purgeGroup g).changePermit g .disarmed 0 .parked) := by
  unfold parkTaken
  simp only [h, touch_sound _ _ _ hs, reduceCtorEq, if_false]
  rfl

theorem parkGroup_sampled {g : GroupIx} {s : State} (h : s.permitState g = .primed ∨ s.permitState g = .live)
    (hsent : ∃ p ∈ s.inFlight, fromSampleTo g p = true) :
    parkGroup g s = permitAnswer g .tripped [] (s.takeSampled g) := parkTaken_tripped (takeSampled_tripped h hsent)

theorem parkGroup_alone {g : GroupIx} {s : State} (h : ∀ p ∈ s.inFlight, fromSampleTo g p = false) :
    parkGroup g s = parkTaken g s := by
  unfold parkGroup
  rw [takeSampled_none g s h]

theorem takeSampled_unarmed {g : GroupIx} {s : State} (h : s.permitState g = .disarmed ∨ s.permitState g = .tripped) :
    s.takeSampled g = s := by
  unfold State.takeSampled
  rcases h with h | h <;> rw [h]

/-- PARK of a LIVE group with every member at rest (R99): the waiting motion is purged, and the permit returns to DISARMED. -/
theorem park_live_given {q : Request} {g : GroupIx} {s t : State} (h : s.permitState g = .live) (hs : s.Sound)
    (ha : Answered q (parkTaken g s).state (parkTaken g s).status (parkTaken g s).parts t) :
    match (s.memberList g).find? fun a => !s.axisRec[a].atRest with
    | some a => Answered q s .notAtRest [permitData s g [natByte a]] t
    | none => ∃ u, u = (s.purgeGroup g).changePermit g .disarmed 0 .parked ∧
      u.permits = upd s.permits g (fun p => { p with state := .disarmed, lapse := 0, halfDone := false }) ∧
      u = { s with
        permits := u.permits, brk := s.brk.set g false
        cl := s.cl.post s.postContext (.permitChange g .live .disarmed .parked 0)
        egress := { s.egress with setpoints := u.egress.setpoints } } ∧
      (∀ sg : SegIx, u.egress.setpoints[sg] = s.egress.setpoints[sg].filter fun e =>
        !(e.mode == .position && s.groupOf e.axis == some g)) ∧
      Answered q u .ok [permitData u g []] t := by
  rw [parkTaken_live h hs] at ha
  cases hrest : (s.memberList g).find? fun a => !s.axisRec[a].atRest with
  | some a => rw [hrest] at ha; exact ha
  | none =>
    rw [hrest] at ha
    refine ⟨_, rfl, rfl, ?_, fun sg => Vector.getElem_map .., ha⟩
    exact changePermit_from (s := s.purgeGroup g) h

/-- Settles O30. -/
theorem parkNeedsMembersAtRest : Obligations.ParkNeedsMembersAtRest := by
  refine ⟨atRest_iff, fromSampleTo_iff, fun s g r before after h hflight hr hbefore hafter => ?_, fun s q g hq hs => ?_⟩
  · rw [takeSampled_armed h, hflight, splitSampled_one hr hbefore hafter]
    rfl
  · obtain ⟨t, hexec, hanswer⟩ := exec_answered_of hq nofun nofun (withIndex_natByte (by decide) g _ _)
    have hpop : s.popRequest.Sound := Sound.of_tables hs rfl
    refine ⟨t, hexec, fun h => ?_, fun h => ?_, fun h hsent => ?_, fun h hsent => ?_, fun h hsent => ?_⟩
    · unfold parkGroup at hanswer
      rw [takeSampled_unarmed (s := s.popRequest) (.inl h), parkTaken_disarmed (s := s.popRequest) h] at hanswer
      exact hanswer
    · unfold parkGroup at hanswer
      rw [takeSampled_unarmed (s := s.popRequest) (.inr h), parkTaken_tripped (s := s.popRequest) h] at hanswer
      exact hanswer
    · rw [parkGroup_sampled (s := s.popRequest) h hsent] at hanswer
      exact ⟨_, rfl, takeSampled_tripped (s := s.popRequest) h hsent, Quiet.takeSampled g _, hanswer⟩
    · rw [parkGroup_alone (s := s.popRequest) hsent, parkTaken_primed (s := s.popRequest) h] at hanswer
      exact ⟨_, rfl, changePermit_from (s := s.popRequest) h, rfl, hanswer⟩
    · rw [parkGroup_alone (s := s.popRequest) hsent] at hanswer
      exact park_live_given (s := s.popRequest) h hpop hanswer

/-! ## CLEAR_TRIP -/

theorem clearTripGroup_disarmed {g : GroupIx} {s : State} (h : s.permitState g = .disarmed) :
    clearTripGroup g s = permitAnswer g .ok [] s := by
  unfold clearTripGroup
  rw [h]

theorem clearTripGroup_armed {g : GroupIx} {s : State} (h : s.permitState g = .primed ∨ s.permitState g = .live) :
    clearTripGroup g s = permitAnswer g .badRequest [] s := by
  unfold clearTripGroup
  rcases h with h | h <;> rw [h]

theorem clearTripGroup_tripped {g : GroupIx} {s : State} (h : s.permitState g = .tripped) (hs : s.Sound) :
    clearTripGroup g s =
      if s.permits[g].age.toNat < tripHoldOf s.tables.groups[g] then
        permitAnswer g .holdTime (bytes16 s.permits[g].age ++ [natByte (tripHoldOf s.tables.groups[g])]) s
      else match s.activeLineFor g with
        | some l => permitAnswer g .inputActive [natByte l] s
        | none => match (s.memberList g).find? fun a => !s.axisRec[a].braked with
          | some a => permitAnswer g .notAtRest [natByte a] s
          | none => permitAnswer g .ok [] (s.clearAccepted g) := by
  unfold clearTripGroup
  simp only [h, touch_sound _ _ _ hs]
  rfl

/-- An accepted CLEAR_TRIP (R105, R115), with the group's permit TRIPPED before it. -/
theorem clearAccepted_sound {g : GroupIx} {s : State} (h : s.permitState g = .tripped) (hs : s.Sound) :
    s.clearAccepted g = { s with
      permits := upd s.permits g (fun p => { p with
        state := .disarmed, lapse := 0, halfDone := false, cause := none, origin := none, age := 0 })
      brk := s.brk.set g false
      creep := upd s.creep g (fun r => { r with verdict := .unknown })
      cl := s.cl.post s.postContext (.permitChange g .tripped .disarmed .cleared 0)
      egress := { s.egress with
        stopSet := s.egress.stopSet.map (·.filter fun a => !(s.memberList g).contains a) } } := by
  have hstate : s.permits[g].state = .tripped := h
  unfold State.clearAccepted
  rw [touch_sound _ _ _ hs]
  simp only [changePermit_eq, State.permitState, State.removeStops, State.modEgress_permits, State.modCreep_permits,
    State.modPermit_permits, upd_upd, upd_get_same, hstate]
  rfl

theorem clearTrip_given {q : Request} {g : GroupIx} {s t : State} (h : s.permitState g = .tripped) (hs : s.Sound)
    (ha : Answered q (clearTripGroup g s).state (clearTripGroup g s).status (clearTripGroup g s).parts t) :
    if s.permits[g].age.toNat < tripHoldOf s.tables.groups[g] then
      Answered q s .holdTime
        [permitData s g (bytes16 s.permits[g].age ++ [natByte (tripHoldOf s.tables.groups[g])])] t
    else match s.activeLineFor g with
      | some l => Answered q s .inputActive [permitData s g [natByte l]] t
      | none => match (s.memberList g).find? fun a => !s.axisRec[a].braked with
        | some a => Answered q s .notAtRest [permitData s g [natByte a]] t
        | none => ∃ u, u = s.clearAccepted g ∧
          u = { s with
            permits := u.permits, brk := s.brk.set g false, creep := u.creep
            cl := s.cl.post s.postContext (.permitChange g .tripped .disarmed .cleared 0)
            egress := { s.egress with stopSet := u.egress.stopSet } } ∧
          u.permits = upd s.permits g (fun p => { p with
            state := .disarmed, lapse := 0, halfDone := false, cause := none, origin := none, age := 0 }) ∧
          u.creep = upd s.creep g (fun r => { r with verdict := .unknown }) ∧
          (∀ sg : SegIx, u.egress.stopSet[sg] =
            s.egress.stopSet[sg].filter fun a => !(s.memberList g).contains a) ∧
          Answered q u .ok [permitData u g []] t := by
  rw [clearTripGroup_tripped h hs, answered_ite] at ha
  split
  · next hage => exact (if_pos hage).mp ha
  next hage =>
  replace ha := (if_neg hage).mp ha
  cases hline : s.activeLineFor g with
  | some l => rw [hline] at ha; exact ha
  | none =>
  rw [hline] at ha
  cases hrest : (s.memberList g).find? fun a => !s.axisRec[a].braked with
  | some a => rw [hrest] at ha; exact ha
  | none =>
  rw [hrest] at ha
  refine ⟨s.clearAccepted g, rfl, ?_, ?_, ?_, fun sg => ?_, ha⟩
  · rw [clearAccepted_sound h hs]
  · rw [clearAccepted_sound h hs]
  · rw [clearAccepted_sound h hs]
  · rw [clearAccepted_sound h hs]
    exact Vector.getElem_map ..

/-- Settles O31. -/
theorem clearTripNeedsHoldLinesAndBrakes : Obligations.ClearTripNeedsHoldLinesAndBrakes := by
  refine ⟨braked_iff, fun s q g hq hs => ?_⟩
  obtain ⟨t, hexec, hanswer⟩ := exec_answered_of hq nofun nofun (withIndex_natByte (by decide) g _ _)
  refine ⟨t, hexec, fun h => ?_, fun h => ?_, fun h => ?_⟩
  · rw [clearTripGroup_disarmed (s := s.popRequest) h] at hanswer
    exact hanswer
  · rw [clearTripGroup_armed (s := s.popRequest) h] at hanswer
    exact hanswer
  · exact clearTrip_given (s := s.popRequest) h (Sound.of_tables hs rfl) hanswer

end Sys2Proof.Machine
end

section
/-! PROOF. Zones, link checks and creep runs, while no record shows an error. -/

namespace Sys2Proof.Machine

/-! ## Zones -/

theorem claim_sound (z : ZoneIx) (g : GroupIx) {s : State} (h : s.Sound) : claim z g s =
    if s.tables.groups[g].held.valid = false ∨ s.tables.groups[g].poisoned = true then .refuse s .badIndex
    else match s.zones[z] with
      | none => .ok (s.changeOwner z (some g) .claim) []
      | some h => if h = g then .ok s [] else .refuse s .zoneHeld [natByte h] := by
  unfold claim
  simp only [touch_sound _ _ _ h, Bool.or_eq_true, Bool.not_eq_true'] <;> rfl

theorem claim_given {q : Request} {z : ZoneIx} {g : GroupIx} {s t : State} (hs : s.Sound)
    (ha : Answered q (claim z g s).state (claim z g s).status (claim z g s).parts t) :
    if s.tables.groups[g].held.valid = false ∨ s.tables.groups[g].poisoned = true then Answered q s .badIndex [[]] t
    else match s.zones[z] with
      | some h => if h = g then Answered q s .ok [[]] t else Answered q s .zoneHeld [[natByte h]] t
      | none => Answered q ({ s with zones := s.zones.set z (some g) }.post (.zoneChange z none (some g) .claim)) .ok
          [[]] t := by
  rw [claim_sound z g hs, answered_ite] at ha
  split
  · next hbad => exact (if_pos hbad).mp ha
  next hgood =>
  replace ha := (if_neg hgood).mp ha
  cases hz : s.zones[z] with
  | some h =>
    rw [hz] at ha
    dsimp only at ha
    rw [answered_ite] at ha
    exact ha
  | none =>
    rw [hz] at ha
    unfold State.changeOwner at ha
    rw [hz] at ha
    exact ha

theorem release_notOwner {z : ZoneIx} {g : GroupIx} {way : ZoneWay} {s : State} (h : s.zones[z] ≠ some g) :
    s.release z g way = (s, .notOwner) := if_neg h

theorem release_occupied {z : ZoneIx} {g : GroupIx} {way : ZoneWay} {s : State} {o : Occupant} (hs : s.Sound)
    (hz : s.zones[z] = some g) (ho : s.occupant z g = some o) : s.release z g way = (s, .occupied o) := by
  unfold State.release
  rw [if_pos hz, readMemberExtents_sound _ _ _ hs]
  dsimp only
  rw [ho]

/-- An accepted release: the zone is FREE, the group's waiting travel into it is gone, and the change is reported. -/
theorem release_accepted {z : ZoneIx} {g : GroupIx} {way : ZoneWay} {s : State} (hs : s.Sound)
    (hz : s.zones[z] = some g) (ho : s.occupant z g = none) : s.release z g way = (({ s with
      zones := s.zones.set z none
      egress := { s.egress with
        setpoints := s.egress.setpoints.map (List.filter fun e => !(s.travelsInto z g e)) } } : State).post
      (.zoneChange z (some g) none way), .released) := by
  have hfree : ({ s with zones := s.zones.set z none } : State).Sound := Sound.of_tables hs rfl
  unfold State.release
  rw [if_pos hz, readMemberExtents_sound _ _ _ hs]
  dsimp only
  rw [ho]
  simp only [State.releaseAccepted, State.purgeZone, readMemberExtents_sound _ _ _ hfree]
  rfl

theorem releaseRequest_given {q : Request} {z : ZoneIx} {g : GroupIx} {s t : State} (hs : s.Sound)
    (ha : Answered q (releaseRequest z g s).state (releaseRequest z g s).status (releaseRequest z g s).parts t) :
    if s.zones[z] ≠ some g then Answered q s .notOwner [[]] t
    else match s.occupant z g with
      | some o => Answered q s .occupied [[natByte o.axis, natByte o.extent]] t
      | none => Answered q (({ s with
          zones := s.zones.set z none
          egress := { s.egress with
            setpoints := s.egress.setpoints.map (List.filter fun e => !(s.travelsInto z g e)) } } : State).post
          (.zoneChange z (some g) none .release)) .ok [[]] t := by
  unfold releaseRequest at ha
  split
  · next hz =>
    rw [release_notOwner hz] at ha
    exact ha
  next hz =>
  replace hz := not_not.mp hz
  cases ho : s.occupant z g with
  | some o =>
    rw [release_occupied hs hz ho] at ha
    exact ha
  | none =>
    rw [release_accepted hs hz ho] at ha
    exact ha

theorem ixOfByte_eq_some_iff {n : Nat} (hn : n ≤ 256) (b : Byte) (i : Fin n) : ixOfByte n b = some i ↔ b = natByte i := by
  refine ⟨natByte_of_ixOfByte, ?_⟩
  rintro rfl
  exact ixOfByte_natByte hn i

theorem travelsInto_iff (s : State) (z : ZoneIx) (g : GroupIx) (e : SetpointEntry) : s.travelsInto z g e = true ↔
    e.mode = .position ∧ s.groupOf e.axis = some g ∧ ∃ x : ExtentIx, s.liveExtent x = true ∧
      s.extentAxis x = some e.axis ∧ s.tables.extents[x].held.zone = natByte z ∧
      min e.reference.toInt e.target.toInt ≤ s.tables.extents[x].held.high.toInt ∧
      s.tables.extents[x].held.low.toInt ≤ max e.reference.toInt e.target.toInt := by
  unfold State.travelsInto State.extentOfZone travelOverlaps
  simp only [Bool.and_eq_true, beq_iff_eq, List.any_eq_true, List.mem_finRange, true_and, decide_eq_true_eq,
    ixOfByte_eq_some_iff (show 16 ≤ 256 by decide), and_assoc]

/-- Settles O35. -/
theorem zonesPassThroughFree : Obligations.ZonesPassThroughFree := by
  intro s q z g hs
  have hpop : s.popRequest.Sound := Sound.of_tables hs rfl
  refine ⟨fun hq => ?_, fun hq => ?_, travelsInto_iff s z g⟩
  · have hwork : requestWork (.claimZone (natByte z) (natByte g)) s.popRequest = claim z g s.popRequest := by
      change (withIndex 16 (natByte z) _ fun z s => withIndex 8 (natByte g) s (claim z)) = _
      rw [withIndex_natByte (by decide), withIndex_natByte (by decide)]
    obtain ⟨t, hexec, hanswer⟩ := exec_answered_of hq nofun nofun hwork
    exact ⟨t, hexec, claim_given (s := s.popRequest) hpop hanswer⟩
  · have hwork : requestWork (.releaseZone (natByte z) (natByte g)) s.popRequest = releaseRequest z g s.popRequest := by
      change (withIndex 16 (natByte z) _ fun z s => withIndex 8 (natByte g) s (releaseRequest z)) = _
      rw [withIndex_natByte (by decide), withIndex_natByte (by decide)]
    obtain ⟨t, hexec, hanswer⟩ := exec_answered_of hq nofun nofun hwork
    exact ⟨t, hexec, releaseRequest_given (s := s.popRequest) hpop hanswer⟩

/-! ## Link checks -/

theorem linkCheck_sound (a : AxisIx) {s : State} (h : s.Sound) : linkCheck a s =
    if s.lockedGroup (s.groupOf a) = true then .refuse s .notDisarmed
    else match s.underCheck s.tables.axes[a].held.segment with
      | some b => .refuse s .busy [natByte b]
      | none =>
        if s.tables.axes[a].held.valid = false ∧ s.tables.axes[a].poisoned = false then .refuse s .badIndex
        else if s.tables.axes[a].poisoned = true then .refuse s .poisoned
        else match segOfByte s.tables.axes[a].held.segment with
          | some sg => .ok (s.startCheck sg a) [(s.startCheck sg a).checks[sg].phase.code]
          | none => .refuse s .poisoned := by
  unfold linkCheck
  simp only [touch_sound _ _ _ h, Bool.and_eq_true, Bool.not_eq_true'] <;> rfl

theorem startCheck_checks (sg k : SegIx) (a : AxisIx) (s : State) : (s.startCheck sg a).checks[k] =
    if sg = k then s.checks[sg].begin_ a s.settings.checkWord else s.checks[k] := upd_get ..

theorem expects_eq (word : Word16) (p : CheckPhase) : p.expects word = if p = .word then word else ~~~word := by
  cases p <;> rfl

/-- What the start of a check leaves (R126, R127). -/
theorem startCheck_spec (sg : SegIx) (a : AxisIx) (s : State) : ∃ u, u = s.startCheck sg a ∧
    (u.checks[sg].inFlight = true ∧ u.checks[sg].axis = a ∧ u.checks[sg].phase = s.checks[sg].phase.opposite ∧
      u.checks[sg].expected = (if u.checks[sg].phase = .word then s.settings.checkWord else ~~~s.settings.checkWord) ∧
      u.checks[sg].sent = false ∧ u.checks[sg].timeout = 0 ∧ u.checks[sg].stale = 0) ∧
    u = { s with checks := u.checks, axisRec := u.axisRec, egress := u.egress } ∧
    (∀ k : SegIx, k ≠ sg → u.checks[k] = s.checks[k]) ∧
    u.axisRec = upd s.axisRec a (fun r => { r with checked := false }) ∧
    u.egress = { s.egress with checkSlot := s.egress.checkSlot.set sg (some ⟨a, u.checks[sg].expected⟩) } := by
  have hsg : (s.startCheck sg a).checks[sg] = s.checks[sg].begin_ a s.settings.checkWord := by
    rw [startCheck_checks, if_pos rfl]
  refine ⟨_, rfl, ?_, rfl, fun k hk => ?_, rfl, ?_⟩
  · rw [hsg]
    exact ⟨rfl, rfl, rfl, expects_eq _ _, rfl, rfl, rfl⟩
  · rw [startCheck_checks, if_neg (Ne.symm hk)]
  · rw [hsg]
    rfl

/-- Settles O36. -/
theorem linkCheckStartsOppositePhase : Obligations.LinkCheckStartsOppositePhase := by
  intro s q a hq hs
  obtain ⟨t, hexec, hanswer⟩ := exec_answered_of hq nofun nofun (withIndex_natByte (by decide) a _ _)
  refine ⟨t, hexec, ?_⟩
  rw [linkCheck_sound a (s := s.popRequest) (Sound.of_tables hs rfl), answered_ite] at hanswer
  split
  · next hlocked => exact (if_pos hlocked).mp hanswer
  next hlocked =>
  replace hanswer := (if_neg hlocked).mp hanswer
  cases hunder : s.underCheck s.tables.axes[a].held.segment with
  | some b =>
    rw [show s.popRequest.underCheck s.popRequest.tables.axes[a].held.segment = some b from hunder] at hanswer
    exact hanswer
  | none =>
  rw [show s.popRequest.underCheck s.popRequest.tables.axes[a].held.segment = none from hunder] at hanswer
  dsimp only at hanswer ⊢
  rw [answered_ite, answered_ite] at hanswer
  split
  · next hvalid => exact (if_pos hvalid).mp hanswer
  next hvalid =>
  replace hanswer := (if_neg hvalid).mp hanswer
  split
  · next hpoisoned => exact (if_pos hpoisoned).mp hanswer
  next hpoisoned =>
  replace hanswer := (if_neg hpoisoned).mp hanswer
  intro sg hsg
  rw [show segOfByte s.popRequest.tables.axes[a].held.segment = some sg from hsg] at hanswer
  obtain ⟨u, hu, hcheck, hframe, hothers, haxis, hegress⟩ := startCheck_spec sg a s.popRequest
  dsimp only at hanswer
  rw [← hu] at hanswer
  exact ⟨u, hu, hcheck, hframe, hothers, haxis, hegress, hanswer⟩

/-! ## Echoes -/

theorem exec_echo_head {s : State} {sg : SegIx} {f : EchoFrame} {rest : List EchoFrame}
    (h : s.paths.echo[sg] = f :: rest) : exec (.echo sg) s =
      .next ({ s with paths := { s.paths with echo := s.paths.echo.set sg rest } }.takeEcho sg f).settle := by
  simp only [exec, execEcho, h]

theorem answers_iff (r : LinkCheck) (a : AxisIx) :
    r.answers a = true ↔ r.inFlight = true ∧ r.sent = true ∧ r.axis = a := by
  simp only [LinkCheck.answers, Bool.and_eq_true, beq_iff_eq, and_assoc]

theorem takeEcho_ignored {s : State} {sg : SegIx} {f : EchoFrame}
    (h : f.overtaken = true ∨ s.checks[sg].answers f.axis = false) : s.takeEcho sg f = s := by
  unfold State.takeEcho
  rw [if_pos]
  rcases h with h | h <;> simp only [h, Bool.true_or, Bool.not_false, Bool.or_true]

theorem takeEcho_judged {s : State} {sg : SegIx} {f : EchoFrame} (hs : s.Sound) (ho : f.overtaken = false)
    (h : s.checks[sg].answers f.axis = true) : s.takeEcho sg f =
      s.judged sg f (judge s.checks[sg].expected f.word f.mounting s.tables.axes[f.axis].held.mirrored) := by
  unfold State.takeEcho
  simp only [touch_sound _ _ _ hs, ho, h, Bool.not_true, Bool.or_self, Bool.false_eq_true, if_false, if_true]

theorem matches_iff (m : Mounting) (mirrored : Bool) :
    m.matches_ mirrored = true ↔ (m = .reversed ↔ mirrored = true) := by
  cases m <;> cases mirrored <;> decide

/-- The end of a check that was sent empties no slot. -/
theorem endCheck_sent {s : State} {sg : SegIx} (h : s.checks[sg].sent = true) (o : CheckOutcome)
    (x : Option (Word16 × Mounting)) : s.endCheck sg o x = { s with
      checks := upd s.checks sg (fun r => { r with inFlight := false })
      cl := s.cl.post s.postContext (.linkCheckDone s.checks[sg].axis o sg s.checks[sg].phase s.checks[sg].expected x
        s.checks[sg].stale) } := by
  unfold State.endCheck
  rw [closeCheck_eq, if_pos h]
  rfl

/-- The judgement of an ECHO that does not carry the other phase's word (R129), and what it leaves. -/
theorem judged_ends {s : State} {sg : SegIx} {f : EchoFrame} (h : s.checks[sg].answers f.axis = true) (mirrored : Bool)
    (hword : f.word ≠ ~~~s.checks[sg].expected) :
    s.judged sg f (judge s.checks[sg].expected f.word f.mounting mirrored) = { s with
      checks := upd s.checks sg (fun r => { r with inFlight := false })
      axisRec := if f.word = s.checks[sg].expected ∧ (f.mounting = .reversed ↔ mirrored = true) then
        upd s.axisRec f.axis (fun r => { r with checked := true }) else s.axisRec
      cl := s.cl.post s.postContext (.linkCheckDone f.axis
        (if f.word ≠ s.checks[sg].expected then .corrupt
          else if f.mounting = .reversed ↔ mirrored = true then .pass else .polarity)
        sg s.checks[sg].phase s.checks[sg].expected (some (f.word, f.mounting)) s.checks[sg].stale) } := by
  obtain ⟨-, hsent, haxis⟩ := (answers_iff _ _).mp h
  unfold judge
  rw [if_neg hword]
  by_cases heq : f.word = s.checks[sg].expected
  · rw [if_pos heq, if_neg (not_not.mpr heq)]
    by_cases hm : f.mounting = .reversed ↔ mirrored = true
    · rw [if_pos ((matches_iff _ _).mpr hm), if_pos ⟨heq, hm⟩, if_pos hm]
      change State.endCheck sg .pass _ (s.modAxis f.axis _) = _
      rw [endCheck_sent (s := s.modAxis f.axis _) hsent]
      dsimp only [State.modAxis_checks]
      rw [haxis]
      rfl
    · rw [if_neg (mt (matches_iff _ _).mp hm), if_neg fun hno => hm hno.2, if_neg hm]
      change State.endCheck sg .polarity _ s = _
      rw [endCheck_sent hsent, haxis]
  · rw [if_neg heq, if_neg fun hno => heq hno.1, if_pos heq]
    change State.endCheck sg .corrupt _ s = _
    rw [endCheck_sent hsent, haxis]

/-- Settles O37. -/
theorem echoIsJudgedAgainstCheck : Obligations.EchoIsJudgedAgainstCheck := by
  intro s sg f rest hpath hs
  let s1 : State := { s with paths := { s.paths with echo := s.paths.echo.set sg rest } }
  have hs1 : s1.Sound := Sound.of_tables hs rfl
  refine ⟨_, s1.takeEcho sg f, exec_echo_head hpath, rfl, ?_⟩
  by_cases h : f.overtaken = true ∨ s.checks[sg].answers f.axis = false
  · rw [takeEcho_ignored (s := s1) h]
    refine ⟨rfl, fun _ => rfl, fun hover hflight haxis hsent => ?_⟩
    have hno := (answers_iff s.checks[sg] f.axis).mpr ⟨hflight, hsent, haxis⟩
    rcases h with h | h
    · rw [h] at hover
      cases hover
    · rw [h] at hno
      cases hno
  · rw [not_or, Bool.not_eq_true, Bool.not_eq_false] at h
    obtain ⟨hover, hanswers⟩ := h
    rw [takeEcho_judged (s := s1) hs1 hover hanswers]
    have hskip : ¬(f.overtaken = true ∨ s.checks[sg].inFlight = false ∨ s.checks[sg].axis ≠ f.axis ∨
        s.checks[sg].sent = false) := by
      obtain ⟨hflight, hsent, haxis⟩ := (answers_iff _ _).mp hanswers
      simp only [hover, hflight, hsent, haxis, ne_eq, not_true_eq_false, reduceCtorEq, or_self, not_false_eq_true]
    by_cases hword : f.word = ~~~s.checks[sg].expected
    · have hstale : judge s1.checks[sg].expected f.word f.mounting s1.tables.axes[f.axis].held.mirrored = .stale :=
        if_pos hword
      rw [hstale]
      exact ⟨rfl, fun hno => absurd hno hskip, fun _ _ _ _ => ⟨rfl, fun _ => ⟨rfl, rfl, rfl⟩, fun hno => absurd hword hno⟩⟩
    · rw [judged_ends (s := s1) hanswers _ hword]
      exact ⟨rfl, fun hno => absurd hno hskip, fun _ _ _ _ => ⟨rfl, fun hno => absurd hno hword, fun _ => ⟨rfl, rfl, rfl⟩⟩⟩

end Sys2Proof.Machine
end

section
/-! PROOF. Creep runs, while no record shows an error. -/

namespace Sys2Proof.Machine

/-! ## Starting and stopping a run -/

theorem creepStart_sound (d : Word16) (g : GroupIx) {s : State} (h : s.Sound) : creepStart d g s =
    if s.tables.groups[g].held.valid = false ∧ s.tables.groups[g].poisoned = false then .refuse s .badIndex
    else if s.permitState g ≠ .disarmed then .refuse s .notDisarmed
    else if s.creep[g].state = .running then .refuse s .busy
    else if s.tables.groups[g].poisoned = true then .refuse s .poisoned
    else match (s.memberList g).find? fun a => s.axisRec[a].lost with
      | some a => .refuse s .notAtRest [natByte a]
      | none => .ok { s with creep := s.creep.set g ⟨.running, d, 0, 0, .unknown⟩ } [] := by
  unfold creepStart
  simp only [touch_sound _ _ _ h, Bool.and_eq_true, Bool.not_eq_true', bne_iff_ne]
  rfl

theorem creepStart_given {q : Request} {d : Word16} {g : GroupIx} {s t : State} (hs : s.Sound)
    (ha : Answered q (creepStart d g s).state (creepStart d g s).status (creepStart d g s).parts t) :
    if s.tables.groups[g].held.valid = false ∧ s.tables.groups[g].poisoned = false then Answered q s .badIndex [[]] t
    else if s.permitState g ≠ .disarmed then Answered q s .notDisarmed [[]] t
    else if s.creep[g].state = .running then Answered q s .busy [[]] t
    else if s.tables.groups[g].poisoned = true then Answered q s .poisoned [[]] t
    else match (s.memberList g).find? fun a => s.axisRec[a].lost with
      | some a => Answered q s .notAtRest [[natByte a]] t
      | none => Answered q { s with creep := s.creep.set g ⟨.running, d, 0, 0, .unknown⟩ } .ok [[]] t := by
  rw [creepStart_sound d g hs] at ha
  simp only [answered_ite] at ha
  cases hlost : (s.memberList g).find? fun a => s.axisRec[a].lost with
  | some a =>
    rw [hlost] at ha
    exact ha
  | none =>
    rw [hlost] at ha
    exact ha

/-- The end of a run that is DONE (R133, R136). -/
theorem finishCreep_sound (g : GroupIx) {s : State} (h : s.Sound) : s.finishCreep g = { s with
    creep := upd s.creep g (fun r => { r with state := .done, verdict := creepVerdict s.tables.groups[g] r })
    cl := s.cl.post s.postContext (.creepDone g (s.finishCreep g).creep[g] s.tables.groups[g].held.creepLimit none) } := by
  have hend := endCreep_sound State.trip g .done creepVerdict none s h
  have hrun : (s.finishCreep g).creep[g] =
      { s.creep[g] with state := .done, verdict := creepVerdict s.tables.groups[g] s.creep[g] } := by
    unfold State.finishCreep
    rw [hend]
    exact upd_get_same _ _ _
  rw [hrun]
  exact hend

theorem creepVerdict_eq (r : Stored GroupFields) (c : CreepRun) : creepVerdict r c =
    if r.poisoned = false ∧ c.accumulator.toNat ≤ r.held.creepLimit.toNat then .pass else .fail := by
  unfold creepVerdict
  cases r.poisoned <;> simp

theorem creepStop_given {q : Request} {g : GroupIx} {s t : State} (hs : s.Sound)
    (ha : Answered q (creepStop g s).state (creepStop g s).status (creepStop g s).parts t) :
    if s.creep[g].state ≠ .running then Answered q s .busy [[]] t
    else if s.creep[g].duration ≠ 0 then Answered q s .badRequest [[]] t
    else ∃ u, u = s.finishCreep g ∧
      u = { s with
        creep := u.creep
        cl := s.cl.post s.postContext (.creepDone g u.creep[g] s.tables.groups[g].held.creepLimit none) } ∧
      u.creep = upd s.creep g (fun r => { r with
        state := .done
        verdict := if s.tables.groups[g].poisoned = false ∧
          r.accumulator.toNat ≤ s.tables.groups[g].held.creepLimit.toNat then .pass else .fail }) ∧
      Answered q u .ok [bytes16 u.creep[g].accumulator ++ [u.creep[g].verdict.code]] t := by
  unfold creepStop at ha
  rw [answered_ite, answered_ite] at ha
  split
  · next hrun => exact (if_pos hrun).mp ha
  next hrun =>
  replace ha := (if_neg hrun).mp ha
  split
  · next hduration => exact (if_pos hduration).mp ha
  next hduration =>
  replace ha := (if_neg hduration).mp ha
  have hcreep : (s.finishCreep g).creep =
      upd s.creep g (fun r => { r with state := .done, verdict := creepVerdict s.tables.groups[g] r }) := by
    rw [finishCreep_sound g hs]
  refine ⟨_, rfl, ?_, ?_, ha⟩
  · exact (finishCreep_sound g hs).trans (by rw [← hcreep])
  · rw [hcreep]
    simp only [creepVerdict_eq]

/-! ## Increments and aborts -/

theorem addIncrement_idle {g : GroupIx} {s : State} (h : s.creep[g].state ≠ .running) (n : Nat) :
    s.addIncrement g n = s := if_neg h

/-- The run after an increment (R133). -/
def CreepRun.increased (n : Nat) (r : CreepRun) : CreepRun :=
  if r.accumulator.toNat + n < 65535 then { r with accumulator := BitVec.ofNat 16 (r.accumulator.toNat + n) }
  else { r with accumulator := 65535#16, state := .saturated, verdict := .fail }

theorem addIncrement_running {g : GroupIx} {s : State} (hs : s.Sound) (h : s.creep[g].state = .running) (n : Nat) :
    s.addIncrement g n = { s with
      creep := upd s.creep g (CreepRun.increased n)
      cl := if s.creep[g].accumulator.toNat + n < 65535 then s.cl else s.cl.post s.postContext
        (.creepDone g (s.creep[g].increased n) s.tables.groups[g].held.creepLimit none) } := by
  unfold State.addIncrement
  rw [if_pos h]
  dsimp only
  by_cases hsum : s.creep[g].accumulator.toNat + n < 65535
  · have hrun : upd s.creep g (CreepRun.increased n) = upd s.creep g
        (fun r => { r with accumulator := BitVec.ofNat 16 (s.creep[g].accumulator.toNat + n) }) :=
      congrArg (s.creep.set g) (if_pos hsum)
    rw [if_pos hsum, if_pos hsum, hrun]
    rfl
  · have hrun : s.creep[g].increased n =
        { s.creep[g] with accumulator := 65535#16, state := .saturated, verdict := .fail } := if_neg hsum
    have hsound : (s.modCreep g fun r => { r with accumulator := BitVec.allOnes 16 }).Sound := Sound.of_tables hs rfl
    rw [if_neg hsum, if_neg hsum, endCreep_sound _ _ _ _ _ _ hsound]
    simp only [State.modCreep_creep, upd_upd, upd_get_same, hrun]
    have hset : upd s.creep g (CreepRun.increased n) =
        upd s.creep g (fun r => { r with accumulator := 65535#16, state := .saturated, verdict := .fail }) :=
      congrArg (s.creep.set g) hrun
    rw [hset]
    rfl

theorem creepStep_running {t : Taken} {g : GroupIx} {p : Word32} {s : State} (hg : t.group = some g)
    (hp : t.previous = some p) (h : s.creep[g].state = .running) :
    s.creepStep t = s.addIncrement g (t.sample.position.toInt - p.toInt).natAbs := by
  unfold State.creepStep
  simp only [hg, hp, h, if_true]
  rfl

theorem creepStep_idle {t : Taken} {g : GroupIx} {s : State} (hg : t.group = some g)
    (h : t.previous = none ∨ s.creep[g].state ≠ .running) : s.creepStep t = s := by
  unfold State.creepStep
  rw [hg]
  cases hp : t.previous with
  | none => rfl
  | some p =>
    have hrun : s.creep[g].state ≠ .running := h.resolve_left (by rw [hp]; nofun)
    exact if_neg hrun

theorem creepStep_noGroup {t : Taken} {s : State} (hg : t.group = none) : s.creepStep t = s := by
  unfold State.creepStep
  rw [hg]

theorem abortCreep_idle {g : GroupIx} {s : State} {why : CreepAbort} {trip : TripRequest → State → State}
    (h : s.creep[g].state ≠ .running) : s.abortCreep trip g why = s := if_neg h

theorem abortCreep_running {g : GroupIx} {s : State} {why : CreepAbort} {trip : TripRequest → State → State}
    (hs : s.Sound) (h : s.creep[g].state = .running) : s.abortCreep trip g why = { s with
      creep := s.creep.set g { s.creep[g] with state := .aborted, verdict := .unknown }
      cl := s.cl.post s.postContext (.creepDone g { s.creep[g] with state := .aborted, verdict := .unknown }
        s.tables.groups[g].held.creepLimit (some why)) } := by
  unfold State.abortCreep
  rw [if_pos h, endCreep_sound _ _ _ _ _ _ hs]
  rfl

/-- Settles O38. -/
theorem creepRunsAreMeasured : Obligations.CreepRunsAreMeasured := by
  intro s g hs
  have hpop : s.popRequest.Sound := Sound.of_tables hs rfl
  refine ⟨fun q d hq => ?_, fun q hq => ?_, fun q hq => ?_, fun n => ⟨fun h => addIncrement_idle h n, fun h => ?_⟩,
    fun t hg => ⟨fun p hp h => creepStep_running hg hp h, creepStep_idle hg⟩,
    fun why => ⟨abortCreep_idle, fun h => ⟨_, rfl, abortCreep_running hs h⟩⟩, fun t hg => creepStep_noGroup hg⟩
  · obtain ⟨t, hexec, hanswer⟩ := exec_answered_of hq nofun nofun (withIndex_natByte (by decide) g _ _)
    exact ⟨t, hexec, creepStart_given (s := s.popRequest) hpop hanswer⟩
  · obtain ⟨t, hexec, hanswer⟩ := exec_answered_of hq nofun nofun (withIndex_natByte (by decide) g _ _)
    exact ⟨t, hexec, creepStop_given (s := s.popRequest) hpop hanswer⟩
  · obtain ⟨t, hexec, hanswer⟩ := exec_answered_of hq nofun nofun (withIndex_natByte (by decide) g _ _)
    exact ⟨t, hexec, hanswer⟩
  · have hcreep : (s.addIncrement g n).creep[g] = s.creep[g].increased n := by
      rw [addIncrement_running hs h]
      exact upd_get_same _ _ _
    rw [hcreep]
    refine ⟨?_, ?_⟩
    · rw [addIncrement_running hs h]
    · rw [addIncrement_running hs h]
      rfl

end Sys2Proof.Machine
end

section
/-! PROOF. The steps of a sample, while no record shows an error, and the queues it joins. -/

namespace Sys2Proof.Machine

/-! ## Step 3: the envelope -/

theorem intrusion_none (t : Taken) (s : State) :
    s.intrusion t none = { s with axisRec := upd s.axisRec t.axis (fun r => { r with intrusion := false }) } := rfl

theorem intrusion_some (t : Taken) (x : ExtentIx) (s : State) : s.intrusion t (some x) = { s with
    axisRec := upd s.axisRec t.axis (fun r => { r with intrusion := true })
    cl := if s.axisRec[t.axis].intrusion = false ∧ t.watched = none then
        s.cl.post s.postContext (.zoneIntrusionSeen t.axis x s.tables.extents[x].held.zone t.sample.position t.group
          t.permit) else s.cl } := by
  unfold State.intrusion
  dsimp only
  cases hi : s.axisRec[t.axis].intrusion with
  | true => simp; rfl
  | false =>
    cases hw : t.watched with
    | none => rfl
    | some g => rfl

/-- Step 3 with the conditions that hold (R61 to R67). -/
theorem envelopeStep_sound (t : Taken) (f : AxisFields) {s : State} (h : s.Sound) : s.envelopeStep t f = { s with
    axisRec := upd s.axisRec t.axis (fun r => { r with intrusion := (s.intrudedExtent t).isSome })
    inFlight := s.inFlight ++ (match t.watched with
      | none => []
      | some g => (envelopeCauses f t.sample (s.intrudedExtent t).isSome).map fun c =>
        (TripSender.sampleMonitor, ⟨g, ⟨c, .axis t.axis⟩, none⟩))
    cl := match s.intrudedExtent t with
      | some x => if s.axisRec[t.axis].intrusion = false ∧ t.watched = none then
          s.cl.post s.postContext (.zoneIntrusionSeen t.axis x s.tables.extents[x].held.zone t.sample.position t.group
            t.permit) else s.cl
      | none => s.cl } := by
  unfold State.envelopeStep
  rw [touchAll_sound _ _ _ h]
  dsimp only
  rw [sendCauses_eq]
  cases hx : s.intrudedExtent t with
  | none =>
    rw [intrusion_none]
    rfl
  | some x =>
    rw [intrusion_some]
    rfl

theorem envelopeCauses_eq (f : AxisFields) (l : LatestSample) (intrudes : Bool) : envelopeCauses f l intrudes =
    (if l.flags.driveFault = true then [Cause.driveFault] else []) ++
      (if l.position.toInt < f.softLow.toInt - f.hardMargin.toNat ∨
        f.softHigh.toInt + f.hardMargin.toNat < l.position.toInt then [Cause.overtravel] else []) ++
      (if f.velocityLimit.toNat < l.velocity.toInt.natAbs then [Cause.overspeed] else []) ++
      (if intrudes = true then [Cause.zoneIntrusion] else []) := by
  have hspeed : f.overspeed l.velocity = true ↔ f.velocityLimit.toNat < l.velocity.toInt.natAbs :=
    decide_eq_true_iff
  simp only [envelopeCauses, AxisFields.overtravel, Bool.or_eq_true, decide_eq_true_eq, hspeed]

/-- Settles O41. -/
theorem envelopeSendsTripRequests : Obligations.EnvelopeSendsTripRequests := by
  intro s t f hs
  refine ⟨?_, ?_, ?_⟩
  · rw [envelopeStep_sound t f hs] <;> rfl
  · rw [envelopeStep_sound t f hs]
  · rw [envelopeStep_sound t f hs]
    dsimp only
    rw [envelopeCauses_eq] <;> rfl

/-! ## Step 4: the skew -/

theorem touchSkew_sound (e : EntryRef) {s : State} (h : s.Sound) : s.touchSkew e = s := touchWith_clean _ _ e s (h e)

theorem skewStep_noPair {t : Taken} {s : State} (h : s.pairOf t.axis = none) : s.skewStep t = s := by
  unfold State.skewStep
  rw [h]

theorem skewStep_noPartner {t : Taken} {p : PairIx} {s : State} (hs : s.Sound) (hp : s.pairOf t.axis = some p)
    (hb : s.partnerOf p t.axis = none) : s.skewStep t = s := by
  unfold State.skewStep
  rw [hp]
  dsimp only
  rw [hb]
  exact touchSkew_sound _ hs

theorem skewStep_pair {t : Taken} {p : PairIx} {b : AxisIx} {s : State} (hs : s.Sound) (hp : s.pairOf t.axis = some p)
    (hb : s.partnerOf p t.axis = some b) : s.skewStep t = match s.axisRec[b].latest with
      | some l => if s.skewReady p t.axis b then s.evaluateSkew t p s.tables.pairs[p].held l else s
      | none => s := by
  unfold State.skewStep
  simp only [hp, hb, touchSkew_sound _ hs] <;> rfl

theorem partnerOf_spec {s : State} {p : PairIx} {a b : AxisIx} (h : s.partnerOf p a = some b) :
    b ≠ a ∧ s.pairOf b = some p := by
  have hne := List.find?_some h
  have hmem := List.mem_of_find?_eq_some h
  simp only [bne_iff_ne] at hne
  simp only [State.pairAxes, List.mem_filter, beq_iff_eq] at hmem
  exact ⟨hne, hmem.2⟩

theorem skewReady_iff (s : State) (p : PairIx) (a b : AxisIx) : s.skewReady p a b = true ↔
    s.tables.pairs[p].held.valid = true ∧ s.tables.pairs[p].poisoned = false ∧ s.tables.axes[a].poisoned = false ∧
      s.tables.axes[b].poisoned = false ∧ s.axisRec[b].arrived = true := by
  simp only [State.skewReady, Bool.and_eq_true, Bool.not_eq_true', and_assoc]

theorem skewRequest_eq (t : Taken) (p : PairIx) (f : PairFields) (skew : Int) (s : State) :
    s.skewRequest t p f skew = { s with inFlight := s.inFlight ++ (match t.watched with
      | some g => if f.tripLimit.toNat < skew.natAbs then
          [(TripSender.sampleMonitor, ⟨g, ⟨.skew, .pair p⟩, none⟩)] else []
      | none => []) } := by
  unfold State.skewRequest
  cases t.watched with
  | none => simp
  | some g =>
    dsimp only
    split
    · rfl
    · simp

theorem recordSkew_eq (p : PairIx) (f : PairFields) (skew : Int) (cycle : Word16) (s : State) :
    s.recordSkew p f skew cycle = { s with
      pairRec := s.pairRec.set p
        ⟨SkewState.step f.alarmLimit skew.natAbs s.pairRec[p].skewState, some (saturate32 skew, cycle)⟩
      cl := if SkewState.step f.alarmLimit skew.natAbs s.pairRec[p].skewState = s.pairRec[p].skewState then s.cl
        else s.cl.post s.postContext (.skewAlarm p
          (SkewState.step f.alarmLimit skew.natAbs s.pairRec[p].skewState == .alarm) (saturate32 skew) cycle) } := by
  unfold State.recordSkew
  dsimp only
  split
  · next h => rfl
  · next h => rfl

theorem evaluateSkew_eq (t : Taken) (p : PairIx) (f : PairFields) (partner : LatestSample) (skew : Int) (s : State)
    (hskew : skew = (if f.lead = natByte t.axis then t.sample.position.toInt - partner.position.toInt
      else partner.position.toInt - t.sample.position.toInt)) : s.evaluateSkew t p f partner = { s with
    pairRec := s.pairRec.set p
      ⟨SkewState.step f.alarmLimit skew.natAbs s.pairRec[p].skewState, some (saturate32 skew, t.sample.cycle)⟩
    inFlight := s.inFlight ++ (match t.watched with
      | some g => if f.tripLimit.toNat < skew.natAbs then
          [(TripSender.sampleMonitor, ⟨g, ⟨.skew, .pair p⟩, none⟩)] else []
      | none => [])
    cl := if SkewState.step f.alarmLimit skew.natAbs s.pairRec[p].skewState = s.pairRec[p].skewState then s.cl
      else s.cl.post s.postContext (.skewAlarm p
        (SkewState.step f.alarmLimit skew.natAbs s.pairRec[p].skewState == .alarm) (saturate32 skew)
        t.sample.cycle) } := by
  unfold State.evaluateSkew
  dsimp only
  rw [← hskew, skewRequest_eq, recordSkew_eq]
  rfl

theorem skewState_step (alarm : Word16) (m : Nat) :
    (alarm.toNat < m → SkewState.step alarm m .normal = .alarm) ∧
    (m ≤ alarm.toNat → SkewState.step alarm m .normal = .normal) ∧
    (m ≤ alarm.toNat / 2 → SkewState.step alarm m .alarm = .normal) ∧
    (alarm.toNat / 2 < m → SkewState.step alarm m .alarm = .alarm) :=
  ⟨fun h => if_pos h, fun h => if_neg (Nat.not_lt.mpr h), fun h => if_pos h, fun h => if_neg (Nat.not_le.mpr h)⟩

/-- Settles O42. -/
theorem skewFollowsTable : Obligations.SkewFollowsTable := by
  refine ⟨skewState_step, fun s t hs => ⟨skewStep_noPair, fun p hp => ⟨skewStep_noPartner hs hp, fun b hb => ?_⟩⟩,
    fun s t p f partner skew hskew => ?_⟩
  · obtain ⟨hne, hpair⟩ := partnerOf_spec hb
    refine ⟨hne, hpair, fun l hvalid hpoison ha hbp harrived hl => ?_, fun hnot => ?_⟩
    · rw [skewStep_pair hs hp hb, hl]
      exact if_pos ((skewReady_iff ..).mpr ⟨hvalid, hpoison, ha, hbp, harrived⟩)
    · rw [skewStep_pair hs hp hb]
      cases hl : s.axisRec[b].latest with
      | none => rfl
      | some l =>
        refine if_neg fun hready => ?_
        obtain ⟨h1, h2, h3, h4, h5⟩ := (skewReady_iff ..).mp hready
        rw [h1, h2, h3, h4, h5, hl] at hnot
        simp at hnot
  · rw [evaluateSkew_eq t p f partner skew s hskew]
    exact ⟨rfl, rfl, rfl⟩

/-! ## Step 5: the way-point -/

theorem waypointStep_idle {t : Taken} {s : State} (h : s.waypoints[t.axis].live = none ∨ t.previous = none) :
    s.waypointStep t = s := by
  unfold State.waypointStep
  split
  · next w p hw hp =>
    rcases h with h | h
    · rw [h] at hw
      cases hw
    · rw [h] at hp
      cases hp
  · rfl

theorem waypointStep_set {t : Taken} {w : Waypoint} {p : Word32} {s : State} (hw : s.waypoints[t.axis].live = some w)
    (hp : t.previous = some p) : s.waypointStep t =
      if w.sense.crosses w.position.toInt p.toInt t.sample.position.toInt then s.fire t w else s := by
  unfold State.waypointStep
  rw [hw, hp]

/-- The live way-point fires: its action, its report, and the staged way-point becomes live (R74). -/
theorem fire_eq (t : Taken) (w : Waypoint) (s : State) : s.fire t w = { (s.autoRelease t w).1 with
    waypoints := upd (s.autoRelease t w).1.waypoints t.axis WaypointSlots.advance
    cl := (s.autoRelease t w).1.cl.post (s.autoRelease t w).1.postContext
      (.waypoint t.axis w t.sample.position t.sample.cycle t.sample.stamp (s.autoRelease t w).2) } := rfl

theorem autoRelease_none {t : Taken} {w : Waypoint} {s : State} (h : w.action = .none) :
    s.autoRelease t w = (s, none) := by
  unfold State.autoRelease
  rw [h]

theorem autoRelease_noGroup {t : Taken} {w : Waypoint} {z : ZoneIx} {s : State} (h : w.action = .releaseZone z)
    (hg : t.group = none) : s.autoRelease t w = (s, some .noGroup) := by
  unfold State.autoRelease
  rw [h]
  dsimp only
  rw [hg]

theorem autoRelease_zone {t : Taken} {w : Waypoint} {z : ZoneIx} {g : GroupIx} {s : State}
    (h : w.action = .releaseZone z) (hg : t.group = some g) : s.autoRelease t w =
      ((s.release z g (.autoRelease t.axis)).1, some (s.release z g (.autoRelease t.axis)).2.auto) := by
  unfold State.autoRelease
  rw [h]
  dsimp only
  rw [hg]

theorem crosses_iff (w p n : Int) : (Sense.rising.crosses w p n = true ↔ p < w ∧ w ≤ n) ∧
    (Sense.falling.crosses w p n = true ↔ w < p ∧ n ≤ w) ∧
    (Sense.either.crosses w p n = true ↔ (p < w ∧ w ≤ n) ∨ (w < p ∧ n ≤ w)) := by
  simp only [Sense.crosses, Bool.or_eq_true, Bool.and_eq_true, decide_eq_true_eq, and_self]

/-- Settles O43. -/
theorem crossedWaypointFires : Obligations.CrossedWaypointFires := by
  refine ⟨crosses_iff, fun s t => ⟨waypointStep_idle, fun w p hw hp => ⟨fun hno => ?_, fun hyes => ?_⟩⟩⟩
  · rw [waypointStep_set hw hp, hno]
    rfl
  · rw [waypointStep_set hw hp, if_pos hyes]
    refine ⟨_, fun c outcome => c.post s.postContext
      (.waypoint t.axis w t.sample.position t.sample.cycle t.sample.stamp outcome), rfl, fun _ _ => rfl, fun h => ?_,
      fun z h => ⟨fun hg => ?_, fun g hg hs => ⟨fun hz => ?_, fun hz ho => ?_, fun hz ho => ?_⟩⟩⟩
    · rw [fire_eq, autoRelease_none h]
      rfl
    · rw [fire_eq, autoRelease_noGroup h hg]
      rfl
    · rw [fire_eq, autoRelease_zone h hg, release_notOwner hz]
      rfl
    · obtain ⟨o, ho⟩ := Option.ne_none_iff_exists'.mp ho
      rw [fire_eq, autoRelease_zone h hg, release_occupied hs hz ho]
      rfl
    · rw [fire_eq, autoRelease_zone h hg, release_accepted hs hz ho]
      rfl

/-! ## Queue entries, and step 7 -/

theorem any_axis_iff {α : Type} (key : α → AxisIx) (e : α) (l : List α) :
    (l.any fun x => key x == key e) = true ↔ ∃ x ∈ l, key x = key e := by
  simp only [List.any_eq_true, beq_iff_eq]

theorem placeSetpoint_new {e : SetpointEntry} {l : List SetpointEntry} (h : ∀ x ∈ l, x.axis ≠ e.axis) :
    placeSetpoint e l = l ++ [e] := if_neg fun hno => by
  obtain ⟨x, hx, heq⟩ := (any_axis_iff SetpointEntry.axis e l).mp hno
  exact h x hx heq

theorem placeSetpoint_old {e : SetpointEntry} {l : List SetpointEntry} (h : ∃ x ∈ l, x.axis = e.axis) :
    placeSetpoint e l = l.map fun x => if x.axis = e.axis then e else x :=
  if_pos ((any_axis_iff SetpointEntry.axis e l).mpr h)

theorem placeForward_new {e : ForwardEntry} {l : List ForwardEntry} (h : ∀ x ∈ l, x.axis ≠ e.axis) :
    placeForward e l = l ++ [e] := if_neg fun hno => by
  obtain ⟨x, hx, heq⟩ := (any_axis_iff ForwardEntry.axis e l).mp hno
  exact h x hx heq

theorem placeForward_old {e : ForwardEntry} {l : List ForwardEntry} (h : ∃ x ∈ l, x.axis = e.axis) :
    placeForward e l = l.map fun x => if x.axis = e.axis then e else x :=
  if_pos ((any_axis_iff ForwardEntry.axis e l).mpr h)

theorem placeForward_ne_nil (e : ForwardEntry) (l : List ForwardEntry) : placeForward e l ≠ [] := by
  by_cases h : ∃ x ∈ l, x.axis = e.axis
  · rw [placeForward_old h]
    obtain ⟨x, hx, -⟩ := h
    simpa using List.ne_nil_of_mem hx
  · rw [placeForward_new fun x hx heq => h ⟨x, hx, heq⟩]
    simp

theorem anyWaiting_of {c : ClSide} {src : Source} (h : c.waiting src = true) : c.anyWaiting = true := by
  refine List.any_eq_true.mpr ⟨src, ?_, h⟩
  cases src with
  | reply | report => simp [Source.all]
  | seg n => fin_cases n <;> simp [Source.all]

theorem forwardStep_joins {t : Taken} {f : AxisFields} {sg : SegIx} {s : State} (hf : f.forward = true)
    (hsg : segOfByte f.segment = some sg) : s.forwardStep t f = { s with
      cl := ({ s.cl with forward := upd s.cl.forward sg (placeForward
        ⟨t.axis, t.sample.cycle, t.sample.position, t.sample.velocity, t.sample.flags⟩) } : ClSide).kick s.postContext } := by
  unfold State.forwardStep
  rw [if_pos hf, hsg]
  rfl

theorem forwardStep_off {t : Taken} {f : AxisFields} {s : State} (hf : f.forward = false) : s.forwardStep t f = s :=
  if_neg (Bool.eq_false_iff.mp hf)

/-- Settles O45. -/
theorem queueEntriesReplaceInPlace : Obligations.QueueEntriesReplaceInPlace := by
  refine ⟨fun e l => ⟨placeSetpoint_new, placeSetpoint_old⟩, fun e l => ⟨placeForward_new, placeForward_old⟩,
    fun s t f => ⟨forwardStep_off, fun sg c hf hsg hc => ⟨fun htx => ?_, fun htx => ?_⟩⟩⟩
  · rw [forwardStep_joins hf hsg, ← hc]
    have hkick : c.kick s.postContext = c := by
      refine if_neg ?_
      rw [hc]
      simp [Option.isSome_iff_ne_none.mp htx]
    rw [hkick]
  · rw [forwardStep_joins hf hsg, ← hc]
    have hwait : c.waiting (.seg sg) = true := by
      have hne : c.forward[sg] ≠ [] := by
        rw [hc]
        dsimp only
        rw [upd_get_same]
        exact placeForward_ne_nil _ _
      simpa [ClSide.waiting] using hne
    have hkick : c.kick s.postContext = c.select s.postContext := by
      refine if_pos ?_
      rw [anyWaiting_of hwait, hc]
      simp [htx]
    rw [hkick]

end Sys2Proof.Machine
end

section
/-! PROOF. The step, the clock and the cycle start: what they come to, and what no response touches. -/

namespace Sys2Proof.Machine

/-! ## The soft resets that come before time passes -/

theorem pick_frame {α : Type} (l : List α) (s : State) :
    (s.pick l).2 = { s with freeCount := (s.pick l).2.freeCount } := by
  match l with
  | [] => rfl
  | [_] => rfl
  | _ :: _ :: _ => rfl

theorem mem_resetBlock_all (b : ResetBlock) : b ∈ ResetBlock.all := by
  cases b with
  | port p =>
    cases p with
    | cl => simp [ResetBlock.all]
    | seg n => fin_cases n <;> simp [ResetBlock.all]
  | _ => simp [ResetBlock.all]

theorem mem_readyResets (s : State) (b : ResetBlock) :
    b ∈ s.readyResets ↔ b ∈ s.resets ∧ ∀ c ∈ b.waitsFor, c ∉ s.resets := by
  simp [State.readyResets, List.contains_eq_mem]

theorem readyResets_of_waitsFor_nil {s : State} {b : ResetBlock} (hb : b ∈ s.resets) (h : b.waitsFor = []) :
    s.readyResets ≠ [] :=
  List.ne_nil_of_mem ((mem_readyResets s b).mpr ⟨hb, fun c hc => by simp [h] at hc⟩)

/-- While blocks have yet to take the soft reset, one of them may take it (R154). -/
theorem readyResets_ne_nil {s : State} (h : s.resets ≠ []) : s.readyResets ≠ [] := by
  by_cases ht : ResetBlock.timer ∈ s.resets
  · exact readyResets_of_waitsFor_nil ht rfl
  by_cases hm : ResetBlock.monitor ∈ s.resets
  · exact List.ne_nil_of_mem ((mem_readyResets s .monitor).mpr ⟨hm, fun c hc => by
      rw [List.mem_singleton.mp hc]
      exact ht⟩)
  by_cases ha : ResetBlock.admission ∈ s.resets
  · exact List.ne_nil_of_mem ((mem_readyResets s .admission).mpr ⟨ha, fun c hc => by
      rw [List.mem_singleton.mp hc]
      exact hm⟩)
  by_cases hall : ∀ c ∈ s.resets, c = .trip
  · obtain ⟨b, hb⟩ := List.exists_mem_of_ne_nil _ h
    have hbt : b = .trip := hall b hb
    subst hbt
    refine List.ne_nil_of_mem ((mem_readyResets s .trip).mpr ⟨hb, fun c hc hcr => ?_⟩)
    have hne : c ≠ .trip := by simpa [ResetBlock.waitsFor] using (List.mem_filter.mp hc).2
    exact hne (hall c hcr)
  · push Not at hall
    obtain ⟨b, hb, hne⟩ := hall
    refine readyResets_of_waitsFor_nil hb ?_
    cases b with
    | monitor => exact absurd hb hm
    | admission => exact absurd hb ha
    | trip => exact absurd rfl hne
    | _ => rfl

/-- The requests of the active ones of the lines, in their order (R125). -/
def lineRequests (s : State) (lines : List LineIx) : List (TripSender × TripRequest) :=
  lines.flatMap fun l => if s.inputs[l].isActive then
    ((groupsOf s.inputs[l].groups).filter fun g => s.permitState g != .tripped).map fun g =>
      (TripSender.resetEvaluation, ⟨g, ⟨.input, .line l⟩, none⟩) else []

theorem foldl_evaluateLine (lines : List LineIx) (s : State) :
    lines.foldl (fun s l => s.evaluateLine .resetEvaluation l) s =
      { s with inFlight := s.inFlight ++ lineRequests s lines } := by
  induction lines generalizing s with
  | nil => simp [lineRequests]
  | cons l lines ih =>
    rw [List.foldl_cons, ih, evaluateLine_eq]
    simp only [lineRequests, List.flatMap_cons, List.append_assoc]
    rfl

theorem evaluateLines_eq (s : State) : s.evaluateLines = { (s.inFreeOrder
      ((List.finRange 8).filter fun l => s.inputs[l].isActive)).2 with
    inFlight := s.inFlight ++ lineRequests s (s.inFreeOrder
      ((List.finRange 8).filter fun l => s.inputs[l].isActive)).1 } := by
  unfold State.evaluateLines
  dsimp only
  generalize (List.finRange 8).filter (fun l => s.inputs[l].isActive) = act
  rw [foldl_evaluateLine]
  obtain ⟨lines, u, hu⟩ : ∃ lines u, s.inFreeOrder act = (lines, u) := ⟨_, _, rfl⟩
  have hframe := inFreeOrder_state act s
  rw [hu] at hframe ⊢
  dsimp only at hframe ⊢
  rw [hframe]
  rfl

/-- What no soft reset touches: the written contents of the inputs, the settings and the index, and what waits. -/
structure ResetKept (s t : State) : Prop where
  index : t.tables.index = s.tables.index
  inputs : t.inputs = s.inputs
  paths : t.paths = s.paths
  settings : t.settings = s.settings
  requests : t.requests = s.requests
  pending : t.pending = s.pending

theorem ResetKept.refl (s : State) : ResetKept s s := ⟨rfl, rfl, rfl, rfl, rfl, rfl⟩

theorem ResetKept.trans {s t u : State} (h : ResetKept s t) (k : ResetKept t u) : ResetKept s u :=
  ⟨k.index.trans h.index, k.inputs.trans h.inputs, k.paths.trans h.paths, k.settings.trans h.settings,
    k.requests.trans h.requests, k.pending.trans h.pending⟩

theorem Quiet.resetKept {s t : State} (h : Quiet s t) : ResetKept s t :=
  ⟨h.index, h.inputs, h.paths, h.settings, h.requests, h.pending⟩

theorem resetBlock_kept (b : ResetBlock) (s : State) :
    ResetKept s (s.resetBlock b) ∧ (s.resetBlock b).resets = s.resets := by
  cases b with
  | trip =>
    unfold State.resetBlock State.resetTrips
    rw [evaluateLines_eq, inFreeOrder_state]
    exact ⟨⟨rfl, rfl, rfl, rfl, rfl, rfl⟩, rfl⟩
  | port p => cases p <;> exact ⟨⟨rfl, rfl, rfl, rfl, rfl, rfl⟩, rfl⟩
  | _ => exact ⟨⟨rfl, rfl, rfl, rfl, rfl, rfl⟩, rfl⟩

/-- One block's soft reset: a ready block, and the state it takes it from, which differs in the draws alone. -/
theorem resetNext_eq {s : State} (h : s.resets ≠ []) : ∃ (b : ResetBlock) (v : State), b ∈ s.readyResets ∧
    v = { s with freeCount := v.freeCount } ∧ s.resetNext = ((v.resetBlock b).doneReset b).settle := by
  obtain ⟨b, hb, hpick⟩ := pick_mem _ s (readyResets_ne_nil h)
  refine ⟨b, (s.pick s.readyResets).2, hb, pick_frame _ _, ?_⟩
  unfold State.resetNext
  split
  · next c s1 he =>
    rw [he] at hpick ⊢
    cases hpick
    rfl
  · next s1 he =>
    rw [he] at hpick
    cases hpick

theorem resetNext_kept {s : State} (h : s.resets ≠ []) :
    ResetKept s s.resetNext ∧ ∃ b ∈ s.resets, s.resetNext.resets = s.resets.erase b := by
  obtain ⟨b, v, hb, hv, heq⟩ := resetNext_eq h
  obtain ⟨hkept, hresets⟩ := resetBlock_kept b v
  have hquiet := Quiet.settle ((v.resetBlock b).doneReset b)
  rw [← heq] at hquiet
  have hsv : ResetKept s v := by
    rw [hv]
    exact ⟨rfl, rfl, rfl, rfl, rfl, rfl⟩
  have hdone : ResetKept (v.resetBlock b) ((v.resetBlock b).doneReset b) := ⟨rfl, rfl, rfl, rfl, rfl, rfl⟩
  refine ⟨(hsv.trans hkept).trans (hdone.trans hquiet.resetKept), b, ((mem_readyResets s b).mp hb).1, ?_⟩
  rw [hquiet.resets]
  change (v.resetBlock b).resets.erase b = s.resets.erase b
  rw [hresets, hv]

theorem resetFor_kept (n : Nat) (s : State) (h : s.resets.length = n) :
    ResetKept s (s.resetFor n) ∧ (s.resetFor n).resets = [] := by
  induction n generalizing s with
  | zero => exact ⟨ResetKept.refl s, List.eq_nil_of_length_eq_zero h⟩
  | succ n ih =>
    have hne : s.resets ≠ [] := List.ne_nil_of_length_eq_add_one h
    obtain ⟨hkept, b, hb, herase⟩ := resetNext_kept hne
    obtain ⟨hk, hnil⟩ := ih s.resetNext (by rw [herase, List.length_erase_of_mem hb, h]; rfl)
    exact ⟨hkept.trans hk, hnil⟩

theorem finishResets_kept (s : State) : ResetKept s s.finishResets := (resetFor_kept _ s rfl).1

theorem finishResets_resets (s : State) : s.finishResets.resets = [] := (resetFor_kept _ s rfl).2

theorem finishResets_idle {s : State} (h : s.resets = []) : s.finishResets = s := by
  unfold State.finishResets
  rw [h]
  rfl

/-! ## The step and the clock -/

/-- Settles O1. -/
theorem stepRunsFrontCommand : Obligations.StepRunsFrontCommand := by
  intro c rest s h
  unfold Machine.step
  rw [h]

theorem step_idle {s : State} (h : s.pending = []) : Machine.step s = .next s.tick := by
  unfold Machine.step
  rw [h]

theorem toNat_phase_succ {phase period : Word16} (h : phase.toNat < period.toNat) :
    (phase + 1).toNat = phase.toNat + 1 := by
  have hlt := period.isLt
  rw [BitVec.toNat_add]
  exact Nat.mod_eq_of_lt (show phase.toNat + 1 < 2 ^ 16 by omega)

theorem settle_timer (s : State) : s.settle.timer = s.timer := (Quiet.settle s).timer
theorem settle_settings (s : State) : s.settle.settings = s.settings := (Quiet.settle s).settings

theorem tick_within {s u : State} (hu : u = s.finishResets) (h : u.timer.phase.toNat + 1 < u.timer.period.toNat) :
    s.tick = u.settle.advanceClock := by
  have hphase := toNat_phase_succ (Nat.lt_of_succ_lt h)
  subst hu
  refine if_neg ?_
  change ¬ s.finishResets.settle.timer.period.toNat ≤ (s.finishResets.settle.timer.phase + 1).toNat
  rw [settle_timer, hphase]
  exact Nat.not_le.mpr h

theorem tick_end {s u : State} (hu : u = s.finishResets) (h : u.timer.phase.toNat + 1 = u.timer.period.toNat) :
    s.tick = u.settle.advanceClock.cycleEvent := by
  have hphase := toNat_phase_succ (phase := u.timer.phase) (period := u.timer.period) (by omega)
  subst hu
  refine if_pos ?_
  change s.finishResets.settle.timer.period.toNat ≤ (s.finishResets.settle.timer.phase + 1).toNat
  rw [settle_timer, hphase]
  exact h.ge

/-! ## What no response to a cycle start touches -/

/-- What the timer's own work leaves, and no block's response touches. -/
structure CycleQuiet (s t : State) : Prop where
  timer : t.timer = s.timer
  index : t.tables.index = s.tables.index
  pairRec : t.pairRec = s.pairRec
  waypoints : t.waypoints = s.waypoints
  zones : t.zones = s.zones
  inputs : t.inputs = s.inputs
  paths : t.paths = s.paths
  settings : t.settings = s.settings
  requests : t.requests = s.requests
  resets : t.resets = s.resets
  pending : t.pending = s.pending

theorem CycleQuiet.refl (s : State) : CycleQuiet s s := ⟨rfl, rfl, rfl, rfl, rfl, rfl, rfl, rfl, rfl, rfl, rfl⟩

theorem CycleQuiet.trans {s t u : State} (h : CycleQuiet s t) (k : CycleQuiet t u) : CycleQuiet s u :=
  ⟨k.timer.trans h.timer, k.index.trans h.index, k.pairRec.trans h.pairRec, k.waypoints.trans h.waypoints,
    k.zones.trans h.zones, k.inputs.trans h.inputs, k.paths.trans h.paths, k.settings.trans h.settings,
    k.requests.trans h.requests, k.resets.trans h.resets, k.pending.trans h.pending⟩

theorem Quiet.cycleQuiet {s t : State} (h : Quiet s t) : CycleQuiet s t :=
  ⟨h.timer, h.index, h.pairRec, h.waypoints, h.zones, h.inputs, h.paths, h.settings, h.requests, h.resets, h.pending⟩

theorem CycleQuiet.then {s t u : State} (h : CycleQuiet s t) (k : Quiet t u) : CycleQuiet s u := h.trans k.cycleQuiet

theorem cycleQuiet_tripClosed (s₀ : State) : TripClosed (CycleQuiet s₀) where
  post := fun b s h => h.then ((quiet_tripClosed s).post b s (Quiet.refl s))
  corrected := fun e s ho h => h.then ((quiet_tripClosed s).corrected e s ho (Quiet.refl s))
  poisoned := fun e s ho h => h.then ((quiet_tripClosed s).poisoned e s ho (Quiet.refl s))
  close := fun sg s h => h.then ((quiet_tripClosed s).close sg s (Quiet.refl s))
  drop := fun a s h => h.then ((quiet_tripClosed s).drop a s (Quiet.refl s))
  stop := fun sg a s h => h.then ((quiet_tripClosed s).stop sg a s (Quiet.refl s))
  purge := fun g s h => h.then ((quiet_tripClosed s).purge g s (Quiet.refl s))
  creepEnd := fun g st v hst s h => h.then ((quiet_tripClosed s).creepEnd g st v hst s (Quiet.refl s))
  record := fun r l m s h => h.then ((quiet_tripClosed s).record r l m s (Quiet.refl s))
  send := fun r s h => h.then ((quiet_tripClosed s).send r s (Quiet.refl s))
  toTripped := fun r s ho h => h.then ((quiet_tripClosed s).toTripped r s ho (Quiet.refl s))
  further := fun g s ho h => h.then ((quiet_tripClosed s).further g s ho (Quiet.refl s))
  draw := fun s h => h.then ((quiet_tripClosed s).draw s (Quiet.refl s))

theorem cycleQuiet_egressClosed (s₀ : State) : EgressClosed (CycleQuiet s₀) where
  toTripClosed := cycleQuiet_tripClosed s₀
  transmit := fun sg f s h => h.then ((quiet_egressClosed s).transmit sg f s (Quiet.refl s))
  unstop := fun sg a s h => h.then ((quiet_egressClosed s).unstop sg a s (Quiet.refl s))
  unbeacon := fun sg s h => h.then ((quiet_egressClosed s).unbeacon sg s (Quiet.refl s))
  dequeue := fun sg s h => h.then ((quiet_egressClosed s).dequeue sg s (Quiet.refl s))
  sendCheck := fun sg c s hc h => h.then ((quiet_egressClosed s).sendCheck sg c s hc (Quiet.refl s))

theorem cycleQuiet_cycleClosed (s₀ : State) : CycleClosed (CycleQuiet s₀) where
  toEgressClosed := cycleQuiet_egressClosed s₀
  permit := fun _ _ _ _ _ _ h => h.trans ⟨rfl, rfl, rfl, rfl, rfl, rfl, rfl, rfl, rfl, rfl, rfl⟩
  notes := fun _ _ _ _ h => h.trans ⟨rfl, rfl, rfl, rfl, rfl, rfl, rfl, rfl, rfl, rfl, rfl⟩
  creep := fun _ _ _ h => h.trans ⟨rfl, rfl, rfl, rfl, rfl, rfl, rfl, rfl, rfl, rfl, rfl⟩
  axis := fun _ _ _ h => h.trans ⟨rfl, rfl, rfl, rfl, rfl, rfl, rfl, rfl, rfl, rfl, rfl⟩
  sendAny := fun _ _ _ h => h.trans ⟨rfl, rfl, rfl, rfl, rfl, rfl, rfl, rfl, rfl, rfl, rfl⟩
  segPort := fun _ _ _ h => h.trans ⟨rfl, rfl, rfl, rfl, rfl, rfl, rfl, rfl, rfl, rfl, rfl⟩
  clPort := fun _ _ h => h.trans ⟨rfl, rfl, rfl, rfl, rfl, rfl, rfl, rfl, rfl, rfl, rfl⟩
  decrement := fun _ _ _ h => h.trans ⟨rfl, rfl, rfl, rfl, rfl, rfl, rfl, rfl, rfl, rfl, rfl⟩
  timeout := fun _ _ h => h.trans ⟨rfl, rfl, rfl, rfl, rfl, rfl, rfl, rfl, rfl, rfl, rfl⟩
  scrubPos := fun _ _ h => h.trans ⟨rfl, rfl, rfl, rfl, rfl, rfl, rfl, rfl, rfl, rfl, rfl⟩

/-- Settles O5. -/
theorem cycleStartAdvancesTimer : Obligations.CycleStartAdvancesTimer := by
  refine ⟨fun s u hu => ?_, fun s o => ⟨⟨_, permute_perm _ _, rfl⟩, ⟨_, permute_perm _ _, rfl⟩,
    ⟨_, permute_perm _ _, rfl⟩, ⟨_, permute_perm _ _, rfl⟩, rfl, fun p => rfl⟩⟩
  have hkept := (finishResets_kept s).trans (Quiet.settle s.finishResets).resetKept
  have hresets := (Quiet.settle s.finishResets).resets.trans (finishResets_resets s)
  have hidle : s.resets = [] → u = s.settle := fun h => by rw [hu, finishResets_idle h]
  obtain ⟨o, ho⟩ : ∃ o, o = u.elapse.cycleOrders := ⟨_, rfl⟩
  obtain ⟨v, hv⟩ : ∃ v, v = State.advanceCycle { u.elapse with freeCount := u.elapse.freeCount + 5 } := ⟨_, rfl⟩
  have hq := (cycleQuiet_cycleClosed v).cycleTasks o v (CycleQuiet.refl v)
  rw [← hu] at hkept hresets
  refine ⟨v, _, permute o.tasks CycleTask.all, o, ?_, ?_, permute_perm _ _, rfl, hq.timer, hidle, ?_⟩
  · unfold exec execCycleStart
    rw [← hu, ho, hv]
    rfl
  · rw [hv]
    rfl
  · subst hv
    exact ⟨hq.resets.trans hresets, hq.index.trans hkept.index, hq.pairRec, hq.waypoints, hq.zones,
      hq.inputs.trans hkept.inputs, hq.paths.trans hkept.paths, hq.settings.trans hkept.settings,
      hq.requests.trans hkept.requests, hq.pending.trans hkept.pending⟩

/-- Settles O2. -/
theorem idleStepAdvancesClock : Obligations.IdleStepAdvancesClock := by
  intro s u hpending hu
  have hresets : u.resets = [] := by rw [hu, finishResets_resets]
  refine ⟨hresets, fun h => by rw [hu, finishResets_idle h], fun h => ⟨_, step_idle hpending, ?_, ?_⟩,
    fun h => ⟨_, step_idle hpending, ?_, ?_⟩⟩
  · rw [tick_within hu h]
    change (⟨u.settle.timer.timebase + 1, u.settle.timer.cycle, u.settle.timer.period, u.settle.timer.phase + 1⟩ : Timer) = _
    rw [settle_timer]
  · rw [tick_within hu h]
    rfl
  · rw [tick_end hu h]
    have hq := (cycleQuiet_cycleClosed _).cycleTasks u.settle.advanceClock.cycleOrders _
      (CycleQuiet.refl u.settle.advanceClock.beginCycle)
    refine hq.timer.trans ?_
    change (⟨u.settle.timer.timebase + 1, u.settle.timer.cycle + 1, u.settle.settings.cyclePeriod, 0⟩ : Timer) = _
    rw [settle_timer, settle_settings]
  · rw [tick_end hu h]

/-! ## Idle steps up to a cycle start -/

theorem advanceClock_elapse {s : State} (h : s.timer.phase.toNat < s.timer.period.toNat) :
    s.advanceClock.elapse = s.elapse := by
  have hphase := toNat_phase_succ h
  have hleft : s.timer.period.toNat - s.timer.phase.toNat = 1 + (s.timer.period.toNat - (s.timer.phase.toNat + 1)) := by
    omega
  unfold State.elapse State.advanceClock
  dsimp only
  rw [hphase, hleft, BitVec.ofNat_add, BitVec.add_assoc]
  rfl

theorem execCycleStart_idle {s : State} (hr : s.resets = []) (he : s.egress.idleWaiting = []) :
    exec .cycleStart s = .next s.elapse.cycleEvent := by
  unfold exec execCycleStart
  rw [finishResets_idle hr, settle_idle s he]

theorem elapse_end {s : State} (h : s.timer.phase.toNat + 1 = s.timer.period.toNat) :
    s.elapse.cycleEvent = s.advanceClock.cycleEvent := by
  have hphase : s.timer.phase + 1 = s.timer.period :=
    BitVec.eq_of_toNat_eq (by rw [toNat_phase_succ (period := s.timer.period) (by omega), h])
  have heq : s.elapse = s.advanceClock := by
    unfold State.elapse State.advanceClock
    rw [hphase, ← h, Nat.add_sub_cancel_left]
    rfl
  rw [heq]

theorem run_of_step {M : Host.Core} {s t : M.State} (h : M.step s = .next t) (n : Nat) :
    M.run (n + 1) s = M.run n t := by
  rw [Host.Core.run, h]

theorem run_idle (n : Nat) (s : State) (hp : s.pending = []) (hr : s.resets = []) (he : s.egress.idleWaiting = [])
    (hn : s.timer.phase.toNat + (n + 1) = s.timer.period.toNat) :
    Sys2Proof.core.run (n + 1) s = .next s.elapse.cycleEvent := by
  have hfin := (finishResets_idle hr).symm
  induction n generalizing s with
  | zero =>
    have htick := tick_end hfin hn
    rw [settle_idle s he] at htick
    rw [elapse_end hn, ← htick]
    exact run_of_step (M := Sys2Proof.core) (step_idle hp) 0
  | succ n ih =>
    have hlt : s.timer.phase.toNat < s.timer.period.toNat := by omega
    have htick := tick_within hfin (by omega)
    rw [settle_idle s he] at htick
    have hrest := ih s.advanceClock hp hr he (by
      change (s.timer.phase + 1).toNat + (n + 1) = s.timer.period.toNat
      rw [toNat_phase_succ hlt]
      omega) (finishResets_idle (s := s.advanceClock) hr).symm
    rw [advanceClock_elapse hlt, ← htick] at hrest
    exact (run_of_step (M := Sys2Proof.core) (step_idle hp) (n + 1)).trans hrest

/-- Settles O6. -/
theorem idleStepsReachCycleStart : Obligations.IdleStepsReachCycleStart := by
  intro s hp hr he hlt
  obtain ⟨n, hn⟩ : ∃ n, s.timer.period.toNat - s.timer.phase.toNat = n + 1 :=
    ⟨s.timer.period.toNat - s.timer.phase.toNat - 1, by omega⟩
  rw [hn, execCycleStart_idle hr he]
  exact run_idle n s hp hr he (by omega)

/-! ## Pin reset -/

/-- Settles O3. -/
theorem pinResetLeavesResetValues : Obligations.PinResetLeavesResetValues := by
  intro pins s
  refine ⟨s.pinReset pins, rfl, ?_⟩
  have hrecords : Permit.reset = ⟨.disarmed, 0, false, none, none, 0, 0⟩ ∧
      AxisRecord.reset = ⟨false, none, false, 0, false, false, 0, 0, false⟩ ∧
      LinkCheck.reset = ⟨false, 0, .complement, 0, false, 0, 0⟩ := ⟨rfl, rfl, rfl⟩
  obtain ⟨hpermit, haxis, hcheck⟩ := hrecords
  simp [State.pinReset, State.reset, TableStore.reset, Egress.reset, ClSide.reset, hpermit, haxis, hcheck,
    CreepRun.reset, PairRecord.reset, ErrorStatus.clean, Port.reset, Settings.default]

end Sys2Proof.Machine
end

section
/-! PROOF. What each block's response to a cycle start comes to, and the same for a count that stands at its limit. -/

namespace Sys2Proof.Machine

/-! ## A trip request while no record shows an error -/

theorem upd_congr {α : Type} {n : Nat} (v : Vector α n) (i : Fin n) {f f' : α → α} (h : f v[i] = f' v[i]) :
    upd v i f = upd v i f' := by
  unfold upd
  rw [h]

theorem upd_id {α : Type} {n : Nat} (v : Vector α n) (i : Fin n) {f : α → α} (h : f v[i] = v[i]) : upd v i f = v := by
  refine Vector.ext fun k hk => ?_
  change (upd v i f)[(⟨k, hk⟩ : Fin n)] = v[(⟨k, hk⟩ : Fin n)]
  rw [upd_get]
  split
  · next hi =>
    subst hi
    exact h
  · rfl

theorem afterRequest_tripped {r : TripRequest} {p : Permit} (h : p.state = .tripped) :
    p.afterRequest r = { p with further := satInc p.further } := by
  unfold Permit.afterRequest
  rw [h]

theorem afterRequest_disarmed {r : TripRequest} {p : Permit} (h : p.state = .disarmed)
    (hc : r.cause.cause.commanded = false) : p.afterRequest r = p := by
  unfold Permit.afterRequest
  rw [h]
  exact if_neg (Bool.eq_false_iff.mp hc)

theorem afterRequest_trips {r : TripRequest} {s : State} (h : s.tripsOn r) :
    s.permits[r.group].afterRequest r = s.permits[r.group].toTripped r := by
  unfold Permit.afterRequest
  rcases h with h | h | ⟨h, hc⟩ <;> rw [show s.permits[r.group].state = _ from h]
  exact if_pos hc

/-- A request finds a group TRIPPED, DISARMED and not to be tripped by it, or to be tripped (R101). -/
theorem tripsOn_cases (r : TripRequest) (s : State) : s.permitState r.group = .tripped ∨
    (s.permitState r.group = .disarmed ∧ r.cause.cause.commanded = false) ∨ s.tripsOn r := by
  unfold State.tripsOn
  cases s.permitState r.group with
  | tripped => simp
  | disarmed => cases r.cause.cause.commanded <;> simp
  | primed => simp
  | live => simp

theorem trip_sound {s : State} (hs : s.Sound) (r : TripRequest) :
    (s.trip r).permits = upd s.permits r.group (·.afterRequest r) ∧ (s.trip r).tables = s.tables := by
  rcases tripsOn_cases r s with h | ⟨h, hc⟩ | h
  · rw [trip_tripped h]
    refine ⟨?_, rfl⟩
    rw [State.modPermit_permits]
    exact upd_congr _ _ (afterRequest_tripped h).symm
  · rw [trip_disarmed h hc]
    exact ⟨(upd_id s.permits r.group (afterRequest_disarmed h hc)).symm, rfl⟩
  · obtain ⟨hpermits, -, -, -, -, -, -, -, -, -, -, -, htables, -⟩ := tripStopsTheGroup s r hs h
    refine ⟨hpermits.trans ?_, htables⟩
    exact upd_congr _ _ (afterRequest_trips h).symm

theorem Quiet.abortCreep (g : GroupIx) (why : CreepAbort) (s : State) : Quiet s (s.abortCreep State.trip g why) :=
  (quiet_tripClosed s).abortCreep (quiet_tripClosed s).trip g why s (Quiet.refl s)

theorem Quiet.modPermit (g : GroupIx) (f : Permit → Permit) (s : State) : Quiet s (s.modPermit g f) :=
  ⟨rfl, rfl, rfl, rfl, rfl, rfl, rfl, rfl, rfl, rfl, rfl, rfl, rfl, rfl, rfl⟩

theorem Quiet.changePermit (g : GroupIx) (st : PermitState) (lapse : Word16) (why : PermitReason) (s : State) :
    Quiet s (s.changePermit g st lapse why) :=
  ⟨rfl, rfl, rfl, rfl, rfl, rfl, rfl, rfl, rfl, rfl, rfl, rfl, rfl, rfl, rfl⟩

/-! ## The sample monitor's closing of an axis's cycle -/

/-- The axis becomes LOST (R30): the reports, and the trip of its group. -/
theorem becomeLost_eq (a : AxisIx) (s : State) : s.becomeLost a =
    (let v : State := { s with
      axisRec := upd s.axisRec a (fun r => { r with lost := true })
      cl := s.cl.post s.postContext (.axisLost a (s.groupOf a) (s.axisRec[a].latest.map LatestSample.cycle)) }
    match s.groupOf a with
      | some g => (v.trip ⟨g, ⟨.axisLost, .axis a⟩, none⟩).abortCreep State.trip g (.lost a)
      | none => v) := rfl

theorem Quiet.becomeLost (a : AxisIx) (s : State) :
    Quiet { s with axisRec := upd s.axisRec a (fun r => { r with lost := true }) } (s.becomeLost a) := by
  rw [becomeLost_eq]
  dsimp only
  split
  · next g _ =>
    refine Quiet.trans ?_ ((Quiet.trip _ _).trans (Quiet.abortCreep _ _ _))
    exact ⟨rfl, rfl, rfl, rfl, rfl, rfl, rfl, rfl, rfl, rfl, rfl, rfl, rfl, rfl, rfl⟩
  · exact ⟨rfl, rfl, rfl, rfl, rfl, rfl, rfl, rfl, rfl, rfl, rfl, rfl, rfl, rfl, rfl⟩

theorem abortCreep_permits {g : GroupIx} {why : CreepAbort} {s : State} (hs : s.Sound) :
    (s.abortCreep State.trip g why).permits = s.permits := by
  by_cases h : s.creep[g].state = .running
  · rw [abortCreep_running hs h]
  · rw [abortCreep_idle h]

theorem becomeLost_permits {a : AxisIx} {s : State} (hs : s.Sound) : (s.becomeLost a).permits =
    match s.groupOf a with
    | some g => upd s.permits g (·.afterRequest ⟨g, ⟨.axisLost, .axis a⟩, none⟩)
    | none => s.permits := by
  rw [becomeLost_eq]
  dsimp only
  split
  · next g _ =>
    generalize hv : ({ s with axisRec := _, cl := _ } : State) = v
    have hvs : v.Sound := Sound.of_tables hs (by rw [← hv])
    obtain ⟨hpermits, htables⟩ := trip_sound hvs ⟨g, ⟨.axisLost, .axis a⟩, none⟩
    rw [abortCreep_permits (Sound.of_tables hvs htables), hpermits, ← hv]
  · rfl

theorem closeAxis_invalid {a : AxisIx} {s : State} (hs : s.Sound) (h : s.tables.axes[a].held.valid = false) :
    s.closeAxis a = s := by
  unfold State.closeAxis
  rw [touch_sound _ _ _ hs]
  exact if_neg (Bool.eq_false_iff.mp h)

theorem closeAxis_arrived {a : AxisIx} {s : State} (hs : s.Sound) (h : s.tables.axes[a].held.valid = true)
    (ha : s.axisRec[a].arrived = true) : s.closeAxis a = { s with
      axisRec := upd s.axisRec a (fun r => { r with missCount := 0, lost := false, arrived := false })
      cl := if s.axisRec[a].lost = true then s.cl.post s.postContext (.axisRecovered a (s.timer.cycle - 1))
        else s.cl } := by
  unfold State.closeAxis
  rw [touch_sound _ _ _ hs]
  refine (if_pos h).trans ((if_pos ha).trans ?_)
  unfold State.closeArrived
  dsimp only
  split <;> rfl

/-- The axis with its miss count risen (R29). -/
def State.missed (a : AxisIx) (s : State) : State :=
  { s with axisRec := upd s.axisRec a fun r => { r with missCount := satInc r.missCount } }

theorem missed_axis (a : AxisIx) (s : State) :
    (s.missed a).axisRec[a] = { s.axisRec[a] with missCount := satInc s.axisRec[a].missCount } := upd_get_same _ _ _

theorem lossReached_missed (a : AxisIx) (s : State) : (s.missed a).lossReached a = true ↔ s.axisRec[a].lost = false ∧
    (satInc s.axisRec[a].missCount).toNat = s.tables.axes[a].held.missLimit.toNat := by
  unfold State.lossReached
  rw [missed_axis]
  simp only [Bool.and_eq_true, Bool.not_eq_true', beq_iff_eq]
  rfl

theorem closeAxis_missed {a : AxisIx} {s : State} (hs : s.Sound) (h : s.tables.axes[a].held.valid = true)
    (ha : s.axisRec[a].arrived = false) : s.closeAxis a =
      if s.axisRec[a].lost = false ∧ (satInc s.axisRec[a].missCount).toNat = s.tables.axes[a].held.missLimit.toNat then
        (s.missed a).becomeLost a else s.missed a := by
  unfold State.closeAxis
  rw [touch_sound _ _ _ hs]
  refine (if_pos h).trans ((if_neg (Bool.eq_false_iff.mp ha)).trans ?_)
  exact if_congr (lossReached_missed a s) rfl rfl

theorem missed_becomeLost (a : AxisIx) (s : State) : (s.missed a).becomeLost a =
    (let v : State := { s with
      axisRec := upd s.axisRec a (fun r => { r with missCount := satInc r.missCount, lost := true })
      cl := s.cl.post s.postContext (.axisLost a (s.groupOf a) (s.axisRec[a].latest.map LatestSample.cycle)) }
    match s.groupOf a with
      | some g => (v.trip ⟨g, ⟨.axisLost, .axis a⟩, none⟩).abortCreep State.trip g (.lost a)
      | none => v) := by
  rw [becomeLost_eq, missed_axis]
  have hrec : upd (s.missed a).axisRec a (fun r => { r with lost := true }) =
      upd s.axisRec a (fun r => { r with missCount := satInc r.missCount, lost := true }) := by
    unfold State.missed
    rw [upd_upd]
  rw [hrec]
  rfl

/-- The records after a cycle without a sample (R29, R30). -/
theorem closeAxis_missed_axisRec {a : AxisIx} {s : State} (hs : s.Sound) (h : s.tables.axes[a].held.valid = true)
    (ha : s.axisRec[a].arrived = false) : (s.closeAxis a).axisRec = upd s.axisRec a (fun r => { r with
      missCount := satInc r.missCount
      lost := r.lost || (satInc r.missCount).toNat == s.tables.axes[a].held.missLimit.toNat }) ∧
    Quiet { s with axisRec := (s.closeAxis a).axisRec } (s.closeAxis a) := by
  rw [closeAxis_missed hs h ha]
  split
  · next hlost =>
    have hq := Quiet.becomeLost a (s.missed a)
    refine ⟨?_, ?_⟩
    · rw [hq.axisRec]
      unfold State.missed
      dsimp only
      rw [upd_upd]
      refine upd_congr _ _ ?_
      rw [hlost.2, beq_self_eq_true, Bool.or_true]
    · rw [hq.axisRec]
      exact hq
  · next hlost =>
    refine ⟨?_, Quiet.refl _⟩
    unfold State.missed
    dsimp only
    refine upd_congr _ _ ?_
    have hkeep : (s.axisRec[a].lost || (satInc s.axisRec[a].missCount).toNat ==
        s.tables.axes[a].held.missLimit.toNat) = s.axisRec[a].lost := by
      cases hl : s.axisRec[a].lost with
      | true => rfl
      | false => exact beq_false_of_ne fun heq => hlost ⟨hl, heq⟩
    rw [hkeep]

theorem closeAxis_arrived_quiet {a : AxisIx} {s : State} (hs : s.Sound) (h : s.tables.axes[a].held.valid = true)
    (ha : s.axisRec[a].arrived = true) : (s.closeAxis a).axisRec = upd s.axisRec a (fun r => { r with
      missCount := 0, lost := false, arrived := false }) ∧
    Quiet { s with axisRec := (s.closeAxis a).axisRec } (s.closeAxis a) := by
  rw [closeAxis_arrived hs h ha]
  exact ⟨rfl, rfl, rfl, rfl, rfl, rfl, rfl, rfl, rfl, rfl, rfl, rfl, rfl, rfl, rfl, rfl⟩

theorem closeAxis_valid {a : AxisIx} {s : State} (hs : s.Sound) (h : s.tables.axes[a].held.valid = true) :
    Quiet { s with axisRec := (s.closeAxis a).axisRec } (s.closeAxis a) ∧
      ∀ b : AxisIx, b ≠ a → (s.closeAxis a).axisRec[b] = s.axisRec[b] := by
  cases ha : s.axisRec[a].arrived with
  | true =>
    obtain ⟨hrec, hq⟩ := closeAxis_arrived_quiet hs h ha
    exact ⟨hq, fun b hb => by rw [hrec]; exact upd_get_ne _ (Ne.symm hb) _⟩
  | false =>
    obtain ⟨hrec, hq⟩ := closeAxis_missed_axisRec hs h ha
    exact ⟨hq, fun b hb => by rw [hrec]; exact upd_get_ne _ (Ne.symm hb) _⟩

/-! ## The ports -/

/-- The port's own response to a cycle start (R160). -/
def State.portTicked (p : PortId) (s : State) : State :=
  s.modPort p fun q => { q with
    seen := false, silence := if q.seen then q.silence else satInc q.silence, limit := s.silenceLimit p }

theorem portOf_modPort (p : PortId) (f : Port → Port) (s : State) : (s.modPort p f).portOf p = f (s.portOf p) := by
  cases p with
  | seg n =>
    change (upd s.segPorts n fun q => { q with port := f q.port })[n].port = _
    rw [upd_get_same]
    rfl
  | cl => rfl

theorem modPort_congr {p : PortId} {f f' : Port → Port} {s : State} (h : f (s.portOf p) = f' (s.portOf p)) :
    s.modPort p f = s.modPort p f' := by
  cases p with
  | seg n =>
    have hports : upd s.segPorts n (fun q => { q with port := f q.port }) =
        upd s.segPorts n (fun q => { q with port := f' q.port }) :=
      upd_congr _ _ (congrArg (fun q => ({ s.segPorts[n] with port := q } : SegPort)) h)
    exact congrArg (fun v => ({ s with segPorts := v } : State)) hports
  | cl => exact congrArg (fun q => ({ s with clPort := { s.clPort with port := q } } : State)) h

theorem portCycle_seen {p : PortId} {s : State} (h : (s.portOf p).seen = true) : s.portCycle p = s.portTicked p := by
  unfold State.portCycle
  refine (if_pos h).trans (modPort_congr ?_)
  rw [h]
  rfl

theorem portTicked_unseen {p : PortId} {s : State} (h : (s.portOf p).seen = false) : s.portTicked p =
    s.modPort p fun q => { q with silence := satInc q.silence, limit := s.silenceLimit p } := by
  refine modPort_congr ?_
  rw [h]
  rfl

theorem portCycle_unseen {p : PortId} {s : State} (h : (s.portOf p).seen = false) : s.portCycle p =
    if (s.portTicked p).silent p then (s.portTicked p).portLoss p else s.portTicked p := by
  rw [portTicked_unseen h]
  exact if_neg (Bool.eq_false_iff.mp h)

theorem silent_iff (p : PortId) (s : State) : s.silent p = true ↔ (s.portOf p).link = .up ∧ (s.portOf p).seen = false ∧
    (s.portOf p).limit.toNat ≤ (s.portOf p).silence.toNat := by
  simp only [State.silent, Bool.and_eq_true, beq_iff_eq, Bool.not_eq_true', decide_eq_true_eq, and_assoc]

theorem portTicked_silent {p : PortId} {s : State} (h : (s.portOf p).seen = false) : (s.portTicked p).silent p = true ↔
    (s.portOf p).link = .up ∧ (s.silenceLimit p).toNat ≤ (satInc (s.portOf p).silence).toNat := by
  rw [silent_iff, portTicked_unseen h, portOf_modPort]
  simp only [h, true_and]

/-- The axis records with the checked flags of these axes cleared (R163). -/
def unchecked (l : List AxisIx) (v : Vector AxisRecord 64) : Vector AxisRecord 64 :=
  l.foldl (fun v a => upd v a fun r => { r with checked := false }) v

theorem foldl_unchecked (l : List AxisIx) (s : State) :
    l.foldl (fun s a => s.modAxis a fun r => { r with checked := false }) s =
      { s with axisRec := unchecked l s.axisRec } := by
  unfold unchecked
  induction l generalizing s with
  | nil => rfl
  | cons a l ih =>
    rw [List.foldl_cons, List.foldl_cons, ih]
    rfl

theorem unchecked_get (l : List AxisIx) (v : Vector AxisRecord 64) (a : AxisIx) :
    (unchecked l v)[a] = if a ∈ l then { v[a] with checked := false } else v[a] := by
  unfold unchecked
  induction l generalizing v with
  | nil => simp
  | cons b l ih =>
    rw [List.foldl_cons, ih, upd_get]
    by_cases hb : b = a
    · subst hb
      simp
    · simp only [if_neg hb, List.mem_cons, Ne.symm hb, false_or]

theorem segmentLoss_ports (sg : SegIx) (s : State) :
    (s.segmentLoss sg).segPorts = upd s.segPorts sg fun q => { q with port := { q.port with link := .down } } := by
  unfold State.segmentLoss
  dsimp only
  refine keeps_foldl _ (fun s g h => (Quiet.trip _ s).segPorts.trans h) _ _ ?_
  split
  · rw [(Quiet.endCheck _ _ _ _).segPorts, foldl_unchecked]
    rfl
  · rw [foldl_unchecked]
    rfl

theorem portLoss_port (p : PortId) (s : State) : (s.portLoss p).portOf p = { s.portOf p with link := .down } := by
  cases p with
  | seg n =>
    change (s.segmentLoss n).segPorts[n].port = _
    rw [segmentLoss_ports, upd_get_same]
    rfl
  | cl =>
    change s.clLoss.clPort.port = _
    unfold State.clLoss
    rw [sendAll_eq]
    rfl

/-- Settles O7. -/
theorem missAccountingClosesCycle : Obligations.MissAccountingClosesCycle := by
  refine ⟨fun s a hs => ⟨closeAxis_invalid hs, fun hv => ?_⟩, fun s p u hu => ⟨fun h => ?_, fun hseen hlink hlim => ?_⟩⟩
  · obtain ⟨hquiet, hothers⟩ := closeAxis_valid hs hv
    refine ⟨hquiet, hothers, fun ha => ?_, fun ha => ?_⟩
    · rw [closeAxis_arrived hs hv ha]
      exact ⟨upd_get_same _ _ _, rfl⟩
    · obtain ⟨hrec, -⟩ := closeAxis_missed_axisRec hs hv ha
      refine ⟨by rw [hrec]; exact upd_get_same _ _ _, ?_, _, rfl, ?_⟩
      · rw [closeAxis_missed hs hv ha]
        split
        · exact becomeLost_permits (Sound.of_tables hs rfl)
        · rfl
      · rw [closeAxis_missed hs hv ha]
        split
        · exact missed_becomeLost a s
        · rfl
  · have hu : u = s.portTicked p := hu
    rw [hu]
    cases hseen : (s.portOf p).seen with
    | true => exact portCycle_seen hseen
    | false =>
      rw [portCycle_unseen hseen]
      refine if_neg fun hsil => ?_
      obtain ⟨hup, hle⟩ := (portTicked_silent hseen).mp hsil
      rcases h with h | h | h
      · rw [hseen] at h
        cases h
      · rw [hup] at h
        cases h
      · omega
  · have hu : u = s.portTicked p := hu
    have hsil : u.silent p = true := by
      rw [hu]
      exact (portTicked_silent hseen).mpr ⟨hlink, hlim⟩
    have heq : s.portCycle p = u.portLoss p := by
      rw [portCycle_unseen hseen, ← hu]
      exact if_pos hsil
    rw [heq]
    refine ⟨portLoss_port p u, fun sg hp => ?_, fun hp => ?_⟩
    · subst hp
      exact congrArg Host.Outcome.next (if_pos hsil)
    · subst hp
      exact congrArg Host.Outcome.next (if_pos hsil)

end Sys2Proof.Machine
end

section
/-! PROOF. The counters that run down at a cycle start, and what a count that stands at its limit does as a command. -/

namespace Sys2Proof.Machine

/-! ## The permit unit's cycle -/

theorem decrementLapse_lapse (g : GroupIx) (s : State) :
    (s.decrementLapse g).permits[g].lapse = satDec s.permits[g].lapse :=
  congrArg Permit.lapse (upd_get_same s.permits g fun p => { p with lapse := satDec p.lapse })

theorem decrementLapse_state (g : GroupIx) (s : State) : (s.decrementLapse g).permitState g = s.permitState g := by
  have h : (s.decrementLapse g).permits[g] = { s.permits[g] with lapse := satDec s.permits[g].lapse } :=
    upd_get_same _ _ _
  unfold State.permitState
  rw [h]

/-- A PRIMED group returns to DISARMED (R97). -/
theorem expirePrime_primed {g : GroupIx} {s : State} (h : s.permitState g = .primed) : s.expirePrime g = { s with
    permits := upd s.permits g (fun p => { p with state := .disarmed, lapse := 0, halfDone := false })
    brk := s.brk.set g false
    cl := s.cl.post s.postContext (.permitChange g .primed .disarmed .primeExpired 0) } := by
  unfold State.expirePrime
  rw [changePermit_eq, h]
  rfl

theorem permitCycle_disarmed {g : GroupIx} {s : State} (h : s.permitState g = .disarmed) : s.permitCycle g = s := by
  unfold State.permitCycle
  rw [h]

theorem permitCycle_tripped {g : GroupIx} {s : State} (h : s.permitState g = .tripped) :
    s.permitCycle g = s.modPermit g fun p => { p with age := satInc p.age } := by
  unfold State.permitCycle
  rw [h]

theorem permitCycle_primed {g : GroupIx} {s : State} (h : s.permitState g = .primed) : s.permitCycle g =
    if satDec s.permits[g].lapse = 0 then (s.decrementLapse g).expirePrime g else s.decrementLapse g := by
  unfold State.permitCycle
  rw [h]
  dsimp only
  rw [decrementLapse_lapse]

theorem permitCycle_live {g : GroupIx} {s : State} (h : s.permitState g = .live) : s.permitCycle g =
    if satDec s.permits[g].lapse = 0 then (s.decrementLapse g).lapse g else s.decrementLapse g := by
  unfold State.permitCycle
  rw [h]
  dsimp only
  rw [decrementLapse_lapse]

theorem decrement_expirePrime {g : GroupIx} {s : State} (h : s.permitState g = .primed) :
    (s.decrementLapse g).expirePrime g = { s with
      permits := upd s.permits g (fun p => { p with state := .disarmed, lapse := 0, halfDone := false })
      brk := s.brk.set g false
      cl := s.cl.post s.postContext (.permitChange g .primed .disarmed .primeExpired 0) } := by
  rw [expirePrime_primed (by rw [decrementLapse_state, h])]
  unfold State.decrementLapse State.modPermit
  dsimp only
  rw [upd_upd]
  rfl

theorem Quiet.permitCycle (s : State) (g : GroupIx) : Quiet s (s.permitCycle g) := by
  cases h : s.permitState g with
  | disarmed =>
    rw [permitCycle_disarmed h]
    exact Quiet.refl s
  | tripped =>
    rw [permitCycle_tripped h]
    exact Quiet.modPermit g _ s
  | primed =>
    rw [permitCycle_primed h]
    split
    · exact (Quiet.modPermit g _ s).trans (Quiet.changePermit _ _ _ _ _)
    · exact Quiet.modPermit g _ s
  | live =>
    rw [permitCycle_live h]
    split
    · exact (Quiet.modPermit g _ s).trans (Quiet.trip _ _)
    · exact Quiet.modPermit g _ s

/-! ## The trip unit's refill -/

theorem refillGroup_other {g : GroupIx} {s : State} (h : s.permitState g ≠ .tripped) : s.refillGroup g = s := if_neg h

theorem refillGroup_tripped {g : GroupIx} {s : State} (h : s.permitState g = .tripped) (hs : s.Sound) :
    s.refillGroup g = (s.memberList g).foldl (fun s a => s.oweStop State.trip a) s := by
  unfold State.refillGroup
  rw [touch_sound _ _ _ hs]
  exact if_pos h

/-! ## The check unit's counts -/

theorem checkTimeout_idle {sg : SegIx} {s : State} (h : s.checks[sg].inFlight = false ∨ s.checks[sg].sent = false) :
    s.checkTimeout sg = s := by
  refine if_neg fun hno => ?_
  obtain ⟨h1, h2⟩ := Bool.and_eq_true_iff.mp hno
  rw [h1, h2] at h
  simp at h

theorem timedOut_iff (r : LinkCheck) : r.timedOut = true ↔ r.inFlight = true ∧ r.sent = true ∧ r.timeout = 4 := by
  simp only [LinkCheck.timedOut, Bool.and_eq_true, beq_iff_eq, and_assoc]

theorem checkTimeout_running {sg : SegIx} {s : State} (hin : s.checks[sg].inFlight = true)
    (hsent : s.checks[sg].sent = true) : s.checkTimeout sg = { s with
      checks := upd s.checks sg (fun r => { r with
        timeout := satInc r.timeout, inFlight := satInc r.timeout != 4 })
      cl := if satInc s.checks[sg].timeout = 4 then s.cl.post s.postContext (.linkCheckDone s.checks[sg].axis .noEcho
        sg s.checks[sg].phase s.checks[sg].expected none s.checks[sg].stale) else s.cl } := by
  have hrec : (s.modCheck sg fun r => { r with timeout := satInc r.timeout }).checks[sg] =
      { s.checks[sg] with timeout := satInc s.checks[sg].timeout } := upd_get_same _ _ _
  unfold State.checkTimeout
  refine (if_pos (Bool.and_eq_true_iff.mpr ⟨hin, hsent⟩)).trans ?_
  dsimp only
  by_cases hlim : satInc s.checks[sg].timeout = 4
  · rw [if_pos ((timedOut_iff _).mpr (by rw [hrec]; exact ⟨hin, hsent, hlim⟩)),
      endCheck_sent (by rw [hrec]; exact hsent), hrec, if_pos hlim]
    have hupd : upd (upd s.checks sg fun r => { r with timeout := satInc r.timeout }) sg
        (fun r => { r with inFlight := false }) =
        upd s.checks sg (fun r => { r with timeout := satInc r.timeout, inFlight := satInc r.timeout != 4 }) := by
      rw [upd_upd]
      refine upd_congr _ _ ?_
      rw [hlim]
      rfl
    exact congrArg (fun v => ({ s with
      checks := v
      cl := s.cl.post s.postContext (.linkCheckDone s.checks[sg].axis .noEcho sg s.checks[sg].phase
        s.checks[sg].expected none s.checks[sg].stale) } : State)) hupd
  · have hno : ¬ (s.modCheck sg fun r => { r with timeout := satInc r.timeout }).checks[sg].timedOut = true := by
      rw [hrec]
      exact fun h => hlim ((timedOut_iff _).mp h).2.2
    rw [if_neg hno, if_neg hlim]
    have hupd : upd s.checks sg (fun r => { r with timeout := satInc r.timeout }) =
        upd s.checks sg (fun r => { r with timeout := satInc r.timeout, inFlight := satInc r.timeout != 4 }) := by
      refine upd_congr _ _ ?_
      rw [hin, bne_iff_ne.mpr hlim]
    exact congrArg (fun v => ({ s with checks := v } : State)) hupd

theorem complete_iff (r : CreepRun) : r.complete = true ↔ r.state = .running ∧ r.duration ≠ 0 ∧ r.elapsed = r.duration := by
  simp only [CreepRun.complete, Bool.and_eq_true, beq_iff_eq, bne_iff_ne, and_assoc]

theorem creepCycle_idle {g : GroupIx} {s : State} (h : s.creep[g].state ≠ .running) : s.creepCycle g = s := if_neg h

theorem creepVerdict_elapsed (r : Stored GroupFields) (c : CreepRun) (n : Word16) :
    creepVerdict r { c with elapsed := n } = creepVerdict r c := by
  rw [creepVerdict_eq, creepVerdict_eq]

theorem creepCycle_running {g : GroupIx} {s : State} (hs : s.Sound) (h : s.creep[g].state = .running) :
    s.creepCycle g = { s with
      creep := upd s.creep g fun r =>
        if r.duration ≠ 0 ∧ satInc r.elapsed = r.duration then { r with
          elapsed := satInc r.elapsed, state := .done, verdict := creepVerdict s.tables.groups[g] r }
        else { r with elapsed := satInc r.elapsed }
      cl := if s.creep[g].duration ≠ 0 ∧ satInc s.creep[g].elapsed = s.creep[g].duration then
          s.cl.post s.postContext
            (.creepDone g (s.creepCycle g).creep[g] s.tables.groups[g].held.creepLimit none)
        else s.cl } := by
  obtain ⟨u, hu⟩ : ∃ u, u = s.modCreep g fun r => { r with elapsed := satInc r.elapsed } := ⟨_, rfl⟩
  have hrec : u.creep[g] = { s.creep[g] with elapsed := satInc s.creep[g].elapsed } := by
    rw [hu]
    exact upd_get_same _ _ _
  have hcycle : s.creepCycle g = if u.creep[g].complete = true then u.finishCreep g else u := by
    rw [hu]
    exact if_pos h
  by_cases hlim : s.creep[g].duration ≠ 0 ∧ satInc s.creep[g].elapsed = s.creep[g].duration
  · have hcomplete : u.creep[g].complete = true := (complete_iff _).mpr (by rw [hrec]; exact ⟨h, hlim⟩)
    rw [if_pos hcomplete] at hcycle
    have hfinish := finishCreep_sound g (Sound.of_tables hs (by rw [hu]; rfl) : u.Sound)
    rw [if_pos hlim, hcycle]
    conv_lhs => rw [hfinish]
    have hupd : upd u.creep g (fun r => { r with
        state := .done, verdict := creepVerdict u.tables.groups[g] r }) = upd s.creep g fun r =>
        if r.duration ≠ 0 ∧ satInc r.elapsed = r.duration then { r with
          elapsed := satInc r.elapsed, state := .done, verdict := creepVerdict s.tables.groups[g] r }
        else { r with elapsed := satInc r.elapsed } := by
      rw [hu]
      unfold State.modCreep
      dsimp only
      rw [upd_upd]
      refine upd_congr _ _ ?_
      rw [if_pos hlim]
      dsimp only
      rw [creepVerdict_elapsed]
    rw [hupd, hu]
    rfl
  · have hcomplete : ¬ u.creep[g].complete = true := by
      rw [hrec]
      exact fun hc => hlim ((complete_iff _).mp hc).2
    rw [if_neg hcomplete] at hcycle
    rw [if_neg hlim, hcycle, hu]
    have hupd : upd s.creep g (fun r => { r with elapsed := satInc r.elapsed }) = upd s.creep g fun r =>
        if r.duration ≠ 0 ∧ satInc r.elapsed = r.duration then { r with
          elapsed := satInc r.elapsed, state := .done, verdict := creepVerdict s.tables.groups[g] r }
        else { r with elapsed := satInc r.elapsed } := by
      refine upd_congr _ _ ?_
      rw [if_neg hlim]
    exact congrArg (fun v => ({ s with creep := v } : State)) hupd

/-! ## The scrubber -/

theorem scrubVisit_eq (s : State) : s.scrubVisit = (s.touch .scrubber (scrubEntry s.tables.scrubPos)).modTables
    fun t => { t with scrubPos := s.tables.scrubPos + 1 } := by
  have hpos := (Quiet.touch .scrubber (scrubEntry s.tables.scrubPos) s).scrubPos
  unfold State.scrubVisit State.modTables
  dsimp only
  rw [hpos]

theorem scrubVisit_quiet (s : State) :
    Quiet { s with tables := { s.tables with scrubPos := s.tables.scrubPos + 1 } } s.scrubVisit := by
  rw [scrubVisit_eq]
  obtain ⟨h1, h2, h3, h4, h5, h6, h7, h8, h9, h10, h11, h12, h13, h14, h15⟩ :=
    Quiet.touch .scrubber (scrubEntry s.tables.scrubPos) s
  exact ⟨h1, h2, rfl, h4, h5, h6, h7, h8, h9, h10, h11, h12, h13, h14, h15⟩

theorem Quiet.rescrub {s t : State} (h : Quiet s t) (k : Fin 232) :
    Quiet { s with tables := { s.tables with scrubPos := k } } { t with tables := { t.tables with scrubPos := k } } :=
  ⟨h.timer, h.index, rfl, h.axisRec, h.pairRec, h.waypoints, h.zones, h.inputs, h.segPorts, h.clPort, h.paths,
    h.settings, h.requests, h.resets, h.pending⟩

theorem scrubVisits_quiet (n : Nat) (s : State) :
    (State.scrubVisits n s).tables.scrubPos.val = (s.tables.scrubPos.val + n) % 232 ∧
      Quiet { s with tables := { s.tables with scrubPos := (State.scrubVisits n s).tables.scrubPos } }
        (State.scrubVisits n s) := by
  induction n generalizing s with
  | zero => exact ⟨(Nat.mod_eq_of_lt s.tables.scrubPos.isLt).symm, Quiet.refl s⟩
  | succ n ih =>
    obtain ⟨hpos, hq⟩ := ih s.scrubVisit
    have hvisit := scrubVisit_quiet s
    refine ⟨?_, (hvisit.rescrub _).trans hq⟩
    refine hpos.trans ?_
    rw [hvisit.scrubPos]
    change ((s.tables.scrubPos.val + 1) % 232 + n) % 232 = _
    rw [Nat.mod_add_mod]
    congr 1
    omega

theorem scrubEntry_axis (a : AxisIx) : scrubEntry ⟨a.val, by omega⟩ = .axis a := dif_pos a.isLt

theorem scrubEntry_group (g : GroupIx) : scrubEntry ⟨64 + g.val, by omega⟩ = .group g := by
  refine (dif_neg (by simp)).trans ((dif_pos (by dsimp only; omega)).trans ?_)
  simp

theorem scrubEntry_pair (p : PairIx) : scrubEntry ⟨72 + p.val, by omega⟩ = .pair p := by
  refine (dif_neg (by simp; omega)).trans ((dif_neg (by simp)).trans ((dif_pos (by dsimp only; omega)).trans ?_))
  simp

theorem scrubEntry_extent (x : ExtentIx) : scrubEntry ⟨104 + x.val, by omega⟩ = .extent x := by
  refine (dif_neg (by simp; omega)).trans ((dif_neg (by simp; omega)).trans ((dif_neg (by simp)).trans ?_))
  simp

/-- Settles O8. -/
theorem lapseCountersRunDown : Obligations.LapseCountersRunDown := by
  refine ⟨fun s g => ⟨Quiet.permitCycle s g, permitCycle_disarmed, permitCycle_tripped, fun h => ⟨fun hl => ?_, fun hl => ?_⟩,
    fun h => ⟨fun hl => ?_, fun hl => ?_⟩⟩, fun s g => ⟨refillGroup_other, fun h hs => ?_⟩,
    fun s sg => ⟨checkTimeout_idle, fun hin hsent => ?_⟩, fun s g => ⟨creepCycle_idle, fun h hs => ?_⟩,
    fun s => ⟨(scrubVisits_quiet _ s).1, (scrubVisits_quiet _ s).2, rfl, scrubVisit_eq s⟩,
    scrubEntry_axis, scrubEntry_group, scrubEntry_pair, scrubEntry_extent⟩
  · rw [permitCycle_primed h, if_neg hl]
    rfl
  · rw [permitCycle_primed h, if_pos hl]
    exact decrement_expirePrime h
  · rw [permitCycle_live h, if_neg hl]
    rfl
  · have htrip : s.permitCycle g = (s.decrementLapse g).trip ⟨g, ⟨.lapsed, .none⟩, none⟩ := by
      rw [permitCycle_live h, if_pos hl]
      rfl
    have hby : TrippedBy ⟨g, ⟨.lapsed, .none⟩, none⟩ (s.permitCycle g) := by
      rw [htrip]
      exact trip_live (by rw [decrementLapse_state, h])
    exact ⟨htrip, hby.state, hby.cause, hby.brk⟩
  · rw [refillGroup_tripped h hs]
    exact oweStops_sound _ _ _ hs
  · rw [checkTimeout_running hin hsent]
    exact ⟨rfl, rfl⟩
  · have hcycle := creepCycle_running hs h
    have hcreep := congrArg State.creep hcycle
    refine ⟨hcreep, ?_⟩
    rw [hcreep] at hcycle ⊢
    exact hcycle

end Sys2Proof.Machine
end

section
/-! PROOF. A count that stands at its limit, taken as a command of its own. -/

namespace Sys2Proof.Machine

/-! ## What arbiters' choices leave of a trip -/

theorem trippedBy_egressClosed (r : TripRequest) : EgressClosed (TrippedBy r) where
  toTripClosed := trippedBy_tripClosed r
  transmit := fun _ _ _ h => h.of_eq rfl rfl
  unstop := fun _ _ _ h => h.of_eq rfl rfl
  unbeacon := fun _ _ h => h.of_eq rfl rfl
  dequeue := fun _ _ h => h.of_eq rfl rfl
  sendCheck := sendCheck_keeps (trippedBy_tripClosed r) (fun _ _ _ h => h.of_eq rfl rfl) (fun _ _ h => h.of_eq rfl rfl)
    (fun _ _ h => h.of_eq rfl rfl)

/-- No link check of the segment is in flight: it stays so until one is started. -/
def CheckIdle (sg : SegIx) (s : State) : Prop := s.checks[sg].inFlight = false

theorem CheckIdle.upd {sg k : SegIx} {v : Vector LinkCheck 4} {f : LinkCheck → LinkCheck} (h : v[sg].inFlight = false)
    (hf : ∀ r, r.inFlight = false → (f r).inFlight = false) : (upd v k f)[sg].inFlight = false := by
  rw [upd_get]
  split
  · next hk =>
    subst hk
    exact hf _ h
  · exact h

theorem checkIdle_tripClosed (sg : SegIx) : TripClosed (CheckIdle sg) where
  post := fun _ _ h => h
  corrected := fun _ _ _ h => h
  poisoned := fun _ _ _ h => h
  close := fun k s h => by
    rw [closeCheck_eq]
    exact CheckIdle.upd h fun _ _ => rfl
  drop := fun _ _ h => h
  stop := fun _ _ _ h => h
  purge := fun _ _ h => h
  creepEnd := fun _ _ _ _ _ h => h
  record := fun _ _ _ _ h => h
  send := fun _ _ h => h
  toTripped := fun _ _ _ h => h
  further := fun _ _ _ h => h
  draw := fun _ h => h

theorem checkIdle_egressClosed (sg : SegIx) : EgressClosed (CheckIdle sg) where
  toTripClosed := checkIdle_tripClosed sg
  transmit := fun _ _ _ h => h
  unstop := fun _ _ _ h => h
  unbeacon := fun _ _ h => h
  dequeue := fun _ _ h => h
  sendCheck := sendCheck_keeps (checkIdle_tripClosed sg) (fun _ _ _ h => h) (fun _ _ h => h)
    (fun _ _ h => CheckIdle.upd h fun _ hr => hr)

/-! ## AXIS_LOST -/

theorem execAxisLost_reached {a : AxisIx} {s u : State} (hu : u = s.touch .monitor (.axis a))
    (hvalid : u.tables.axes[a].held.valid = true) (hcount : u.axisRec[a].missCount ≠ 0)
    (hlost : u.axisRec[a].lost = false)
    (hlimit : u.axisRec[a].missCount.toNat = u.tables.axes[a].held.missLimit.toNat) :
    exec (.axisLost a) s = .next (u.becomeLost a).settle := by
  subst hu
  refine congrArg Host.Outcome.next (if_pos ?_)
  simp only [Bool.and_eq_true, bne_iff_ne, State.lossReached, Bool.not_eq_true', beq_iff_eq]
  exact ⟨⟨hvalid, hcount⟩, hlost, hlimit⟩

theorem becomeLost_trips {a : AxisIx} {g : GroupIx} {u : State} (hg : u.groupOf a = some g)
    (h : u.permitState g = .primed ∨ u.permitState g = .live) :
    TrippedBy ⟨g, ⟨.axisLost, .axis a⟩, none⟩ (u.becomeLost a) := by
  rw [becomeLost_eq]
  dsimp only
  rw [hg]
  have htrip : TrippedBy ⟨g, ⟨.axisLost, .axis a⟩, none⟩ (State.trip ⟨g, ⟨.axisLost, .axis a⟩, none⟩ { u with
      axisRec := upd u.axisRec a (fun r => { r with lost := true })
      cl := u.cl.post u.postContext (.axisLost a (some g) (u.axisRec[a].latest.map LatestSample.cycle)) }) :=
    trip_trippedBy (h.imp_right .inl)
  exact (trippedBy_tripClosed _).abortCreep (trippedBy_tripClosed _).trip _ _ _ htrip

theorem axisLost_reached (s : State) (a : AxisIx) (u : State) (hu : u = s.touch .monitor (.axis a))
    (hvalid : u.tables.axes[a].held.valid = true) (hcount : s.axisRec[a].missCount ≠ 0)
    (hlost : s.axisRec[a].lost = false)
    (hlimit : s.axisRec[a].missCount.toNat = u.tables.axes[a].held.missLimit.toNat) :
    ∃ t v, exec (.axisLost a) s = .next t ∧
      v = { u with
        axisRec := upd s.axisRec a (fun r => { r with lost := true })
        cl := u.cl.post s.postContext (.axisLost a (s.groupOf a) (s.axisRec[a].latest.map LatestSample.cycle)) } ∧
      t = State.settle (match s.groupOf a with
        | some g => (v.trip ⟨g, ⟨.axisLost, .axis a⟩, none⟩).abortCreep State.trip g (.lost a)
        | none => v) ∧
      t.axisRec = upd s.axisRec a (fun r => { r with lost := true }) ∧
      Quiet { s with axisRec := t.axisRec } t ∧
      ∀ g, s.groupOf a = some g → u.permitState g = .primed ∨ u.permitState g = .live →
        t.permitState g = .tripped ∧ t.permits[g].cause = some ⟨.axisLost, .axis a⟩ := by
  have hq : Quiet s u := by
    rw [hu]
    exact Quiet.touch _ _ _
  have hgroup : u.groupOf a = s.groupOf a := by
    unfold State.groupOf
    rw [hq.index]
  rw [← hq.axisRec] at hcount hlost hlimit
  have hquiet := (Quiet.becomeLost a u).trans (Quiet.settle _)
  refine ⟨_, _, execAxisLost_reached hu hvalid hcount hlost hlimit, rfl, ?_, ?_, ?_, fun g hg hp => ?_⟩
  · rw [becomeLost_eq, hgroup, hq.axisRec, hq.postContext]
  · rw [hquiet.axisRec, hq.axisRec]
  · obtain ⟨h1, h2, h3, -, h5, h6, h7, h8, h9, h10, h11, h12, h13, h14, h15⟩ := hq
    refine Quiet.trans ?_ hquiet
    exact ⟨h1, h2, h3, hquiet.axisRec.symm, h5, h6, h7, h8, h9, h10, h11, h12, h13, h14, h15⟩
  · rw [← hgroup] at hg
    have hby := (trippedBy_egressClosed _).settle _ (becomeLost_trips hg hp)
    exact ⟨hby.state, hby.cause⟩

/-! ## CREEP_RUN_END -/

theorem creepRunEnd_reached (s : State) (g : GroupIx) (hs : s.Sound) (hrun : s.creep[g].state = .running)
    (hd : s.creep[g].duration ≠ 0) (he : s.creep[g].elapsed = s.creep[g].duration) :
    ∃ t u : State, exec (.creepRunEnd g) s = .next t ∧ t = u.settle ∧ Quiet s t ∧ t.permits = s.permits ∧
      t.creep = u.creep ∧
      u = { s with
        creep := upd s.creep g (fun r => { r with state := .done, verdict := creepVerdict s.tables.groups[g] r })
        cl := s.cl.post s.postContext
          (.creepDone g u.creep[g] s.tables.groups[g].held.creepLimit none) } := by
  have hfinish := finishCreep_sound g hs
  have hsound : (s.finishCreep g).Sound := Sound.of_tables hs (by rw [hfinish])
  have hsame := settle_same _ hsound
  have hquiet : Quiet s (s.finishCreep g) := Quiet.endCreep _ _ _ _ (by decide) s
  refine ⟨_, s.finishCreep g, ?_, rfl, hquiet.trans (Quiet.settle _), ?_, ?_, hfinish⟩
  · exact congrArg Host.Outcome.next (if_pos ((complete_iff _).mpr ⟨hrun, hd, he⟩))
  · have hpermits : (s.finishCreep g).permits = s.permits := by rw [hfinish]
    rw [← hpermits, hsame.1]
  · rw [hsame.1]

/-! ## The loss of a link -/

/-- The loss of a segment up to the trips: the link is DOWN, the flags are cleared, the link check has ended (R163). -/
def State.segmentDropped (sg : SegIx) (s : State) : State :=
  let c := s.cl.post s.postContext (.portChange (.seg sg) .down s.segPorts[sg].port.silence)
  { s with
    segPorts := upd s.segPorts sg fun q => { q with port := { q.port with link := .down } }
    axisRec := unchecked (s.axesOn sg) s.axisRec
    checks := upd s.checks sg (fun r => { r with inFlight := false })
    egress := { s.egress with checkSlot :=
      if s.checks[sg].inFlight = true ∧ s.checks[sg].sent = false then s.egress.checkSlot.set sg none
      else s.egress.checkSlot }
    cl := if s.checks[sg].inFlight = true then c.post s.postContext (.linkCheckDone s.checks[sg].axis
      .segmentDown sg s.checks[sg].phase s.checks[sg].expected none s.checks[sg].stale) else c }

theorem segmentLoss_eq (sg : SegIx) (s : State) : s.segmentLoss sg =
    ((List.finRange 8).filter fun g => (s.axesOn sg).any fun a => s.groupOf a == some g).foldl
      (fun u g => u.trip ⟨g, ⟨.segmentDown, .port (.seg sg)⟩, none⟩) (s.segmentDropped sg) := by
  unfold State.segmentLoss
  dsimp only
  rw [foldl_unchecked]
  generalize hu : ({ State.post _ _ with axisRec := _ } : State) = u
  have hdrop : (if u.checks[sg].inFlight = true then u.endCheck sg .segmentDown none else u) = s.segmentDropped sg := by
    have hchecks : u.checks = s.checks := by rw [← hu]; rfl
    rw [hchecks]
    unfold State.segmentDropped
    by_cases hin : s.checks[sg].inFlight = true
    · rw [if_pos hin]
      unfold State.endCheck
      rw [closeCheck_eq, hchecks]
      simp only [hin, true_and]
      cases hsent : s.checks[sg].sent with
      | true => rw [← hu]; rfl
      | false => rw [← hu]; rfl
    · have hidle : upd s.checks sg (fun r => { r with inFlight := false }) = s.checks := by
        refine upd_id _ _ ?_
        rw [← Bool.eq_false_iff.mpr hin]
      rw [if_neg hin, hidle]
      simp only [if_neg hin, if_neg fun h : s.checks[sg].inFlight = true ∧ s.checks[sg].sent = false => hin h.1]
      rw [← hu]
      rfl
  rw [hdrop]
  rfl

theorem mem_axesOn (s : State) (sg : SegIx) (a : AxisIx) :
    a ∈ s.axesOn sg ↔ segOfByte s.tables.axes[a].held.segment = some sg := by
  simp [State.axesOn]

theorem segmentLoss_quiet (sg : SegIx) (s : State) : Quiet { s with
    segPorts := upd s.segPorts sg fun q => { q with port := { q.port with link := .down } }
    axisRec := unchecked (s.axesOn sg) s.axisRec } (s.segmentLoss sg) := by
  rw [segmentLoss_eq]
  refine keeps_foldl _ (fun u g h => h.trans (Quiet.trip _ u)) _ _ ?_
  exact ⟨rfl, rfl, rfl, rfl, rfl, rfl, rfl, rfl, rfl, rfl, rfl, rfl, rfl, rfl, rfl⟩

theorem segmentLoss_checkIdle (sg : SegIx) (s : State) : CheckIdle sg (s.segmentLoss sg) := by
  rw [segmentLoss_eq]
  refine keeps_foldl _ (fun u g h => (checkIdle_tripClosed sg).trip _ u h) _ _ ?_
  exact congrArg LinkCheck.inFlight (upd_get_same s.checks sg fun r => { r with inFlight := false })

theorem segmentDown_reached (s : State) (sg : SegIx) (hlink : s.segPorts[sg].port.link = .up)
    (hseen : s.segPorts[sg].port.seen = false)
    (hlim : s.segPorts[sg].port.limit.toNat ≤ s.segPorts[sg].port.silence.toNat) :
    ∃ (t v : State) (c : ClSide), exec (.segmentDown sg) s = .next t ∧
      c = s.cl.post s.postContext (.portChange (.seg sg) .down s.segPorts[sg].port.silence) ∧
      v = { s with
        segPorts := t.segPorts, axisRec := t.axisRec
        checks := upd s.checks sg (fun r => { r with inFlight := false })
        egress := { s.egress with checkSlot :=
          if s.checks[sg].inFlight = true ∧ s.checks[sg].sent = false then s.egress.checkSlot.set sg none
          else s.egress.checkSlot }
        cl := if s.checks[sg].inFlight = true then c.post s.postContext (.linkCheckDone s.checks[sg].axis
          .segmentDown sg s.checks[sg].phase s.checks[sg].expected none s.checks[sg].stale) else c } ∧
      t = (((List.finRange 8).filter fun g => (s.axesOn sg).any fun a => s.groupOf a == some g).foldl
        (fun u g => u.trip ⟨g, ⟨.segmentDown, .port (.seg sg)⟩, none⟩) v).settle ∧
      t.segPorts = upd s.segPorts sg (fun q => { q with port := { q.port with link := .down } }) ∧
      (∀ a : AxisIx, t.axisRec[a] = if segOfByte s.tables.axes[a].held.segment = some sg then
        { s.axisRec[a] with checked := false } else s.axisRec[a]) ∧
      t.checks[sg].inFlight = false ∧ Quiet { s with segPorts := t.segPorts, axisRec := t.axisRec } t := by
  have hquiet := (segmentLoss_quiet sg s).trans (Quiet.settle _)
  have hidle : CheckIdle sg (s.segmentLoss sg).settle :=
    (checkIdle_egressClosed sg).settle _ (segmentLoss_checkIdle sg s)
  refine ⟨_, s.segmentDropped sg, _, congrArg Host.Outcome.next (if_pos ((silent_iff (.seg sg) s).mpr ⟨hlink, hseen, hlim⟩)),
    rfl, ?_, congrArg State.settle (segmentLoss_eq sg s), hquiet.segPorts, fun a => ?_, hidle, ?_⟩
  · rw [hquiet.segPorts, hquiet.axisRec]
    rfl
  · rw [hquiet.axisRec]
    dsimp only
    rw [unchecked_get]
    exact if_congr (mem_axesOn s sg a) rfl rfl
  · rw [hquiet.segPorts, hquiet.axisRec]
    exact hquiet

theorem clDown_reached (s : State) (hlink : s.clPort.port.link = .up) (hseen : s.clPort.port.seen = false)
    (hlim : s.clPort.port.limit.toNat ≤ s.clPort.port.silence.toNat) : exec .clDown s = .next { s with
      clPort := { s.clPort with port := { s.clPort.port with link := .down } }
      inFlight := s.inFlight ++
        (List.finRange 8).map fun g => (TripSender.clPort, ⟨g, ⟨.supervisorLost, .port .cl⟩, none⟩)
      cl := s.cl.post s.postContext (.portChange .cl .down s.clPort.port.silence) } := by
  refine congrArg Host.Outcome.next ((if_pos ((silent_iff .cl s).mpr ⟨hlink, hseen, hlim⟩)).trans ?_)
  unfold State.clLoss
  dsimp only
  rw [sendAll_eq]
  rfl

/-- Settles O9. -/
theorem reachedCountsTakeEffect : Obligations.ReachedCountsTakeEffect := by
  intro s
  refine ⟨axisLost_reached s, fun g h hl => ?_, fun g h hl => ?_, fun sg hin hsent hcount => ?_,
    creepRunEnd_reached s, segmentDown_reached s, fun h1 h2 h3 => ⟨_, clDown_reached s h1 h2 h3, rfl, rfl, rfl⟩⟩
  · exact congrArg Host.Outcome.next ((if_pos ⟨h, hl⟩).trans (expirePrime_primed h))
  · have hby : TrippedBy ⟨g, ⟨.lapsed, .none⟩, none⟩ (s.lapse g).settle :=
      (trippedBy_egressClosed _).settle _ (trip_live h)
    exact ⟨_, congrArg Host.Outcome.next (if_pos ⟨h, hl⟩), rfl, (Quiet.trip _ s).trans (Quiet.settle _), hby.state,
      hby.cause, hby.brk⟩
  · exact congrArg Host.Outcome.next
      ((if_pos ((timedOut_iff _).mpr ⟨hin, hsent, hcount⟩)).trans (endCheck_sent hsent _ _))

end Sys2Proof.Machine
end

section
/-! PROOF. Frames received at the five ports, and the placing of a report. -/

namespace Sys2Proof.Machine

/-! ## A valid frame at a port -/

theorem validFrame_cl (s : State) : s.validFrame .cl = { s with
    clPort := ⟨{ s.clPort.port with link := .up, silence := 0, seen := true }, s.clPort.dropped⟩
    cl := match s.clPort.port.link with
      | .up => s.cl
      | .down => s.cl.post s.postContext (.portChange .cl .up 0) } := by
  unfold State.validFrame
  dsimp only
  change (match s.clPort.port.link with | .up => _ | .down => _) = _
  cases s.clPort.port.link <;> rfl

theorem validFrame_seg (sg : SegIx) (s : State) : s.validFrame (.seg sg) = { s with
    segPorts := upd s.segPorts sg fun q => { q with port := { q.port with link := .up, silence := 0, seen := true } }
    cl := match s.segPorts[sg].port.link with
      | .up => s.cl
      | .down => s.cl.post s.postContext (.portChange (.seg sg) .up 0) } := by
  unfold State.validFrame
  dsimp only
  change (match s.segPorts[sg].port.link with | .up => _ | .down => _) = _
  cases s.segPorts[sg].port.link <;> rfl

theorem stationMap_validFrame (p : PortId) (sg : SegIx) (b : Byte) (s : State) :
    (s.validFrame p).stationMap sg b = s.stationMap sg b := by
  cases p with
  | cl => rw [validFrame_cl]; rfl
  | seg n => rw [validFrame_seg]; rfl

theorem execClFrameReceive_valid {bytes : List Byte} {f : RawFrame} (h : clFrameOf bytes = some f) (s : State) :
    exec (.clFrameReceive bytes) s = .next ((s.validFrame .cl).routeCl f) := by
  refine congrArg Host.Outcome.next ?_
  unfold State.receiveCl
  rw [h]

theorem execClFrameReceive_bad {bytes : List Byte} (h : clFrameOf bytes = none) (s : State) :
    exec (.clFrameReceive bytes) s = .next (s.countBad .cl) := by
  refine congrArg Host.Outcome.next ?_
  unfold State.receiveCl
  rw [h]

theorem routeCl_setpoint {f : RawFrame} (h : f.kind = kindSetpoint) (s : State) :
    s.routeCl f = s.pathSetpoint ⟨f.address, f.payload⟩ := if_pos h

theorem routeCl_request {f : RawFrame} (h : f.kind = kindRequest) (s : State) :
    s.routeCl f = s.queueRequest ⟨f.tag, f.payload.head?, f.payload.tail⟩ :=
  (if_neg (by rw [h]; decide)).trans (if_pos h)

theorem routeCl_alive {f : RawFrame} (h : f.kind = kindAlive) (s : State) : s.routeCl f = s :=
  (if_neg (by rw [h]; decide)).trans (if_neg (by rw [h]; decide))

theorem pathSetpoint_requests (f : SetpointFrame) (s : State) : (s.pathSetpoint f).requests = s.requests := by
  unfold State.pathSetpoint
  split <;> rfl

theorem queueRequest_paths (r : Request) (s : State) : (s.queueRequest r).paths = s.paths := by
  unfold State.queueRequest
  split <;> rfl

/-- What the routing of a CL frame can change. -/
theorem routeCl_frame (f : RawFrame) (s : State) : s.routeCl f = { s with
    clPort := (s.routeCl f).clPort, paths := (s.routeCl f).paths, requests := (s.routeCl f).requests } := by
  unfold State.routeCl State.pathSetpoint State.queueRequest
  split
  · split <;> rfl
  · split
    · split <;> rfl
    · rfl

/-- Settles O11. -/
theorem clFramesAreSorted : Obligations.ClFramesAreSorted := by
  intro bytes s
  refine ⟨fun h => execClFrameReceive_bad h s, fun f h => ⟨_, execClFrameReceive_valid h s, ?_, fun hup => ?_,
    fun hdown => ?_, fun hk => ?_, fun hk => ?_, fun hk => ?_⟩⟩
  · rw [validFrame_cl, routeCl_frame]
  · rw [validFrame_cl, routeCl_frame, hup]
  · rw [validFrame_cl, routeCl_frame, hdown]
  · rw [validFrame_cl, routeCl_alive hk]
    exact ⟨rfl, rfl, rfl⟩
  · rw [validFrame_cl, routeCl_setpoint hk]
    refine ⟨pathSetpoint_requests _ _, fun hroom => ?_, fun hfull => ?_⟩ <;> unfold State.pathSetpoint
    · rw [if_pos (show s.paths.setpoint.length < Config.pathCapacity from hroom)]
      exact ⟨rfl, rfl⟩
    · rw [if_neg (show ¬ s.paths.setpoint.length < Config.pathCapacity from Nat.not_lt.mpr hfull)]
      exact ⟨rfl, rfl⟩
  · rw [validFrame_cl, routeCl_request hk]
    refine ⟨queueRequest_paths _ _, fun hroom => ?_, fun hfull => ?_⟩ <;> unfold State.queueRequest
    · rw [if_pos (show s.requests.length < Config.requestCapacity from hroom)]
      exact ⟨rfl, rfl⟩
    · rw [if_neg (show ¬ s.requests.length < Config.requestCapacity from Nat.not_lt.mpr hfull)]
      exact ⟨rfl, rfl⟩

/-! ## A frame received on a segment -/

theorem execSegmentFrameReceive_valid {bytes : List Byte} {f : RawFrame} (h : segFrameOf bytes = some f) (sg : SegIx)
    (s : State) : exec (.segmentFrameReceive sg bytes) s = .next ((s.validFrame (.seg sg)).routeSeg sg f) := by
  refine congrArg Host.Outcome.next ?_
  unfold State.receiveSeg
  rw [h]

theorem execSegmentFrameReceive_bad {bytes : List Byte} (h : segFrameOf bytes = none) (sg : SegIx) (s : State) :
    exec (.segmentFrameReceive sg bytes) s = .next (s.countBad (.seg sg)) := by
  refine congrArg Host.Outcome.next ?_
  unfold State.receiveSeg
  rw [h]

theorem routeSeg_unmapped {sg : SegIx} {f : RawFrame} {s : State} (h : s.stationMap sg f.address = none) :
    s.routeSeg sg f = s.modSegPort sg fun q => { q with unmapped := satInc q.unmapped } := by
  unfold State.routeSeg
  rw [h]

theorem routeSeg_sample {sg : SegIx} {f : RawFrame} {s : State} {a : AxisIx} {m : SampleFrame}
    (h : s.stationMap sg f.address = some a) (hk : f.kind = kindSample) (hm : parseSample a f.payload = some m) :
    s.routeSeg sg f = s.pathSample sg m := by
  unfold State.routeSeg
  rw [h]
  dsimp only
  unfold State.routeMapped
  rw [if_pos hk, hm]

theorem routeSeg_echo {sg : SegIx} {f : RawFrame} {s : State} {a : AxisIx} {m : EchoFrame}
    (h : s.stationMap sg f.address = some a) (hk : f.kind = kindEcho) (hm : parseEcho a f.payload = some m) :
    s.routeSeg sg f = s.pathEcho sg m := by
  unfold State.routeSeg
  rw [h]
  dsimp only
  unfold State.routeMapped
  rw [if_neg (by rw [hk]; decide), hm]

/-- The routing of a segment frame changes this segment's port and the paths alone. -/
theorem routeSeg_frame (sg : SegIx) (f : RawFrame) (s : State) : ∃ (g : SegPort → SegPort) (p : Paths),
    s.routeSeg sg f = { s with segPorts := upd s.segPorts sg g, paths := p } := by
  have hid : upd s.segPorts sg id = s.segPorts := upd_id _ _ rfl
  have hsame : s = { s with segPorts := upd s.segPorts sg id, paths := s.paths } := by rw [hid]
  have hsample : ∀ m, ∃ (g : SegPort → SegPort) (p : Paths),
      s.pathSample sg m = { s with segPorts := upd s.segPorts sg g, paths := p } := fun m => by
    unfold State.pathSample
    split
    · exact ⟨id, _, by rw [hid]⟩
    · exact ⟨_, s.paths, rfl⟩
  have hecho : ∀ m, ∃ (g : SegPort → SegPort) (p : Paths),
      s.pathEcho sg m = { s with segPorts := upd s.segPorts sg g, paths := p } := fun m => by
    unfold State.pathEcho
    split
    · exact ⟨id, _, by rw [hid]⟩
    · exact ⟨_, s.paths, rfl⟩
  unfold State.routeSeg State.routeMapped
  split
  · split
    · split
      · exact hsample _
      · exact ⟨id, s.paths, hsame⟩
    · split
      · exact hecho _
      · exact ⟨id, s.paths, hsame⟩
  · exact ⟨_, s.paths, rfl⟩

/-- A state after a valid frame on a segment. -/
def State.heard (sg : SegIx) (s : State) : State := s.validFrame (.seg sg)

theorem heard_port (sg : SegIx) (s : State) : (s.heard sg).segPorts[sg] =
    ⟨{ s.segPorts[sg].port with link := .up, silence := 0, seen := true }, s.segPorts[sg].unmapped⟩ := by
  unfold State.heard
  rw [validFrame_seg]
  exact upd_get_same _ _ _

theorem heard_paths (sg : SegIx) (s : State) : (s.heard sg).paths = s.paths := by
  unfold State.heard
  rw [validFrame_seg]

theorem countBad_port (sg : SegIx) (s : State) : (s.countBad (.seg sg)).segPorts[sg] =
    ⟨{ s.segPorts[sg].port with bad := satInc s.segPorts[sg].port.bad }, s.segPorts[sg].unmapped⟩ :=
  upd_get_same s.segPorts sg fun q => { q with port := q.port.countBad }

theorem pathSample_heard (sg : SegIx) (m : SampleFrame) (s : State) :
    ((s.heard sg).pathSample sg m).segPorts[sg] = ⟨{ s.segPorts[sg].port with
        link := .up, silence := 0, seen := true
        bad := if s.paths.sample[sg].length < 8 then s.segPorts[sg].port.bad else satInc s.segPorts[sg].port.bad },
      s.segPorts[sg].unmapped⟩ ∧
    ((s.heard sg).pathSample sg m).paths = if s.paths.sample[sg].length < 8 then
      { s.paths with sample := upd s.paths.sample sg (· ++ [m]) } else s.paths := by
  unfold State.pathSample
  rw [heard_paths]
  by_cases h : s.paths.sample[sg].length < 8
  · rw [if_pos h, if_pos (show s.paths.sample[sg].length < Config.pathCapacity from h), if_pos h]
    exact ⟨heard_port sg s, rfl⟩
  · rw [if_neg h, if_neg (show ¬ s.paths.sample[sg].length < Config.pathCapacity from h), if_neg h, countBad_port,
      heard_port]
    exact ⟨rfl, heard_paths sg s⟩

theorem pathEcho_heard (sg : SegIx) (m : EchoFrame) (s : State) :
    ((s.heard sg).pathEcho sg m).segPorts[sg] = ⟨{ s.segPorts[sg].port with
        link := .up, silence := 0, seen := true
        bad := if s.paths.echo[sg].length < 8 then s.segPorts[sg].port.bad else satInc s.segPorts[sg].port.bad },
      s.segPorts[sg].unmapped⟩ ∧
    ((s.heard sg).pathEcho sg m).paths = if s.paths.echo[sg].length < 8 then
      { s.paths with echo := upd s.paths.echo sg (· ++ [m]) } else s.paths := by
  unfold State.pathEcho
  rw [heard_paths]
  by_cases h : s.paths.echo[sg].length < 8
  · rw [if_pos h, if_pos (show s.paths.echo[sg].length < Config.pathCapacity from h), if_pos h]
    exact ⟨heard_port sg s, rfl⟩
  · rw [if_neg h, if_neg (show ¬ s.paths.echo[sg].length < Config.pathCapacity from h), if_neg h, countBad_port,
      heard_port]
    exact ⟨rfl, heard_paths sg s⟩

/-- Settles O12. -/
theorem segmentFramesAreMapped : Obligations.SegmentFramesAreMapped := by
  intro sg bytes s
  refine ⟨fun h => execSegmentFrameReceive_bad h sg s, fun f h => ⟨_, execSegmentFrameReceive_valid h sg s, ?_⟩⟩
  have hmap : (s.heard sg).stationMap sg f.address = s.stationMap sg f.address := stationMap_validFrame _ _ _ _
  change _ = _ ∧ _
  obtain ⟨g, p, hroute⟩ := routeSeg_frame sg f (s.heard sg)
  have hheard := validFrame_seg sg s
  refine ⟨?_, fun k hk => ?_, fun hup => ?_, fun hdown => ?_, fun hnone => ?_, fun a m ha hkind hm => ?_,
    fun a m ha hkind hm => ?_⟩
  · change (s.heard sg).routeSeg sg f = { s with
      segPorts := ((s.heard sg).routeSeg sg f).segPorts, cl := ((s.heard sg).routeSeg sg f).cl
      paths := ((s.heard sg).routeSeg sg f).paths }
    rw [hroute]
    unfold State.heard
    rw [hheard]
  · change ((s.heard sg).routeSeg sg f).segPorts[k] = _
    rw [hroute]
    unfold State.heard
    rw [hheard]
    dsimp only
    rw [upd_get_ne _ (Ne.symm hk), upd_get_ne _ (Ne.symm hk)]
  · change ((s.heard sg).routeSeg sg f).cl = _
    rw [hroute]
    unfold State.heard
    rw [hheard, hup]
  · change ((s.heard sg).routeSeg sg f).cl = _
    rw [hroute]
    unfold State.heard
    rw [hheard, hdown]
  · rw [← hmap] at hnone
    have hun := routeSeg_unmapped hnone
    change ((s.heard sg).routeSeg sg f).segPorts[sg] = _ ∧ ((s.heard sg).routeSeg sg f).paths = _
    rw [hun]
    refine ⟨?_, heard_paths sg s⟩
    change (upd (s.heard sg).segPorts sg fun q => { q with unmapped := satInc q.unmapped })[sg] = _
    rw [upd_get_same, heard_port]
  · rw [← hmap] at ha
    have hsample := routeSeg_sample ha hkind hm
    change ((s.heard sg).routeSeg sg f).segPorts[sg] = _ ∧ ((s.heard sg).routeSeg sg f).paths = _
    rw [hsample]
    exact pathSample_heard sg m s
  · rw [← hmap] at ha
    have hecho := routeSeg_echo ha hkind hm
    change ((s.heard sg).routeSeg sg f).segPorts[sg] = _ ∧ ((s.heard sg).routeSeg sg f).paths = _
    rw [hecho]
    exact pathEcho_heard sg m s

/-! ## The report queue -/

theorem queueReport_masked {ctx : PostContext} {b : ReportBody} {c : ClSide}
    (h : reportEnabled ctx.mask b.kind = false) : c.queueReport ctx b = c := if_neg (Bool.eq_false_iff.mp h)

theorem queueReport_enabled {ctx : PostContext} {b : ReportBody} {c : ClSide}
    (h : reportEnabled ctx.mask b.kind = true) : c.queueReport ctx b = c.placeReport ⟨b, ctx.cycle, ctx.stamp, 0⟩ :=
  if_pos h

theorem bumpNewest_concat (older : List Report) (r : Report) :
    bumpNewest (older ++ [r]) = older ++ [{ r with overrun := satInc r.overrun }] := by
  induction older with
  | nil => rfl
  | cons x older ih =>
    rw [List.cons_append, List.cons_append, ← ih]
    exact bumpNewest.eq_3 x (older ++ [r]) (by simp)

theorem bumpNewest_countP (l : List Report) : (bumpNewest l).countP Report.isTrip = l.countP Report.isTrip := by
  rcases List.eq_nil_or_concat l with h | ⟨older, r, h⟩
  · rw [h]
    rfl
  · rw [h, List.concat_eq_append, bumpNewest_concat, List.countP_append, List.countP_append]
    rfl

theorem dropNewestOther_eq (older newer : List Report) (r : Report) (hr : r.isTrip = false)
    (hnewer : ∀ x ∈ newer, x.isTrip = true) : dropNewestOther (older ++ r :: newer) = older ++ newer := by
  have hrev : (older ++ r :: newer).reverse = newer.reverse ++ r :: older.reverse := by simp
  unfold dropNewestOther
  rw [hrev, List.eraseP_append_right _ (fun x hx => by simp [hnewer x (List.mem_reverse.mp hx)]),
    List.eraseP_cons_of_pos (by simp [hr])]
  simp

/-- A queue that holds another than TRIP has a newest such entry. -/
theorem exists_newest_other {l : List Report} (h : ∃ r ∈ l, r.isTrip = false) : ∃ older r newer,
    l = older ++ r :: newer ∧ r.isTrip = false ∧ ∀ x ∈ newer, x.isTrip = true := by
  induction l with
  | nil => simp at h
  | cons y l ih =>
    by_cases hl : ∃ r ∈ l, r.isTrip = false
    · obtain ⟨older, r, newer, heq, hr, hnewer⟩ := ih hl
      exact ⟨y :: older, r, newer, by rw [heq]; rfl, hr, hnewer⟩
    · obtain ⟨r, hr, ht⟩ := h
      have hy : r = y := by
        rcases List.mem_cons.mp hr with hry | hrl
        · exact hry
        · exact absurd ⟨r, hrl, ht⟩ hl
      refine ⟨[], y, l, rfl, hy ▸ ht, fun x hx => ?_⟩
      by_contra hx'
      exact hl ⟨x, hx, Bool.eq_false_iff.mpr hx'⟩

theorem dropNewestOther_countP {l : List Report} (h : ∃ r ∈ l, r.isTrip = false) :
    (dropNewestOther l).countP Report.isTrip = l.countP Report.isTrip := by
  obtain ⟨older, r, newer, heq, hr, hnewer⟩ := exists_newest_other h
  rw [heq, dropNewestOther_eq older newer r hr hnewer, List.countP_append, List.countP_append,
    List.countP_cons_of_neg (by simp [hr])]

theorem any_other_iff (l : List Report) : (l.any fun q => !q.isTrip) = true ↔ ∃ r ∈ l, r.isTrip = false := by
  simp only [List.any_eq_true, Bool.not_eq_true']

theorem all_isTrip_eq_false (l : List Report) : l.all Report.isTrip = false ↔ ∃ r ∈ l, r.isTrip = false := by
  simp [List.all_eq_false]

theorem placeReport_room {r : Report} {c : ClSide} (h : c.reports.length < 32) :
    c.placeReport r = { c with reports := c.reports ++ [r] } := if_pos h

theorem placeReport_lost {r : Report} {c : ClSide} (h : c.reports.length = 32)
    (hr : r.isTrip = false ∨ c.reports.all Report.isTrip = true) : c.placeReport r =
      { c with reports := bumpNewest c.reports, overrunTotal := satInc c.overrunTotal } := by
  refine (if_neg (by rw [h]; decide)).trans (if_neg fun hboth => ?_)
  obtain ⟨ht, hany⟩ := Bool.and_eq_true_iff.mp hboth
  have hall : c.reports.all Report.isTrip = false := (all_isTrip_eq_false _).mpr ((any_other_iff _).mp hany)
  rw [ht, hall] at hr
  simp at hr

theorem placeReport_trip {r : Report} {c : ClSide} (h : c.reports.length = 32) (hr : r.isTrip = true)
    (hany : c.reports.all Report.isTrip = false) : c.placeReport r = { c with
      reports := bumpNewest (dropNewestOther c.reports) ++ [r], overrunTotal := satInc c.overrunTotal } :=
  (if_neg (by rw [h]; decide)).trans
    (if_pos (Bool.and_eq_true_iff.mpr ⟨hr, (any_other_iff _).mpr ((all_isTrip_eq_false _).mp hany)⟩))

/-- Settles O15. -/
theorem fullReportQueueKeepsTrips : Obligations.FullReportQueueKeepsTrips := by
  intro ctx b c
  refine ⟨queueReport_masked, fun he hroom => (queueReport_enabled he).trans (placeReport_room hroom), fun he hfull =>
    ⟨fun hlost => (queueReport_enabled he).trans (placeReport_lost hfull (hlost.imp_left beq_false_of_ne)),
      fun hk hany => ?_⟩, dropNewestOther_eq, bumpNewest_concat⟩
  have htrip : Report.isTrip ⟨b, ctx.cycle, ctx.stamp, 0⟩ = true := beq_iff_eq.mpr hk
  have hother := (all_isTrip_eq_false _).mp hany
  rw [(queueReport_enabled he).trans (placeReport_trip hfull htrip hany)]
  refine ⟨rfl, ?_, List.getLast?_concat, ?_⟩
  · simp only [List.length_append, bumpNewest_length, dropNewestOther_length ((any_other_iff _).mpr hother),
      List.length_singleton, hfull]
  · simp only [List.countP_append, bumpNewest_countP, dropNewestOther_countP hother]
    rw [List.countP_singleton, if_pos htrip]

end Sys2Proof.Machine
end

section
/-! PROOF. The envelope of a frame, and the fields of a segment frame's payload. -/

namespace Sys2Proof.Machine

/-! ## The envelope -/

theorem natByte_toNat {n : Nat} (h : n ≤ 56) : (natByte n).toNat = n := by
  unfold natByte
  rw [BitVec.toNat_ofNat]
  exact Nat.mod_eq_of_lt (by omega)

theorem natByte_eq {b : Byte} {n : Nat} (h : n = b.toNat) : natByte n = b := by
  rw [h]
  exact BitVec.ofNat_toNat 8 b |>.trans (BitVec.setWidth_eq b)

theorem parseFrame_buildFrame (kind address tag : Byte) (payload : List Byte) (h : payload.length ≤ 56) :
    parseFrame (buildFrame kind address tag payload) = some ⟨kind, address, tag, payload⟩ := by
  have hlen := natByte_toNat h
  unfold buildFrame
  simp only [List.cons_append, parseFrame, hlen, List.take_left, List.drop_left]
  exact if_pos ⟨trivial, h, by simp [bytes16], trivial⟩

/-- The frames that pass checks 1 to 3 of R161 are those that the envelope makes. -/
theorem parseFrame_eq_some_iff (bytes : List Byte) (f : RawFrame) : parseFrame bytes = some f ↔
    bytes = buildFrame f.kind f.address f.tag f.payload ∧ f.payload.length ≤ 56 := by
  refine ⟨fun h => ?_, fun ⟨h, hlen⟩ => by rw [h, parseFrame_buildFrame _ _ _ _ hlen]⟩
  unfold parseFrame at h
  split at h
  · next d kind address tag len rest =>
    obtain ⟨⟨hd, hlen, hrest, hcheck⟩, hf⟩ := Option.ite_none_right_eq_some.mp h
    cases hf
    have htake : (rest.take len.toNat).length = len.toNat := by
      rw [List.length_take]
      omega
    refine ⟨?_, htake.trans_le hlen⟩
    unfold buildFrame
    rw [natByte_eq htake, ← hcheck, hd, List.cons_append, List.cons_append, List.cons_append, List.cons_append,
      List.cons_append, List.take_append_drop]
  · cases h

/-! ## The fields of a payload -/

theorem word16_bytes16 (x : Word16) : word16 (x.extractLsb' 8 8) (x.extractLsb' 0 8) = x := by
  refine BitVec.eq_of_getLsbD_eq fun i hi => ?_
  simp only [word16, BitVec.getLsbD_append, BitVec.getLsbD_extractLsb']
  by_cases h : i < 8
  · simp [h]
  · simp [h, show i - 8 < 8 by omega, show 8 + (i - 8) = i by omega]

theorem word32_bytes32 (x : Word32) :
    word32 (x.extractLsb' 24 8) (x.extractLsb' 16 8) (x.extractLsb' 8 8) (x.extractLsb' 0 8) = x := by
  refine BitVec.eq_of_getLsbD_eq fun i hi => ?_
  simp only [word32, BitVec.getLsbD_append, BitVec.getLsbD_extractLsb']
  by_cases h0 : i < 8
  · simp [h0]
  by_cases h1 : i < 16
  · simp [h0, show i - 8 < 8 by omega, show 8 + (i - 8) = i by omega]
  by_cases h2 : i < 24
  · simp [h0, show ¬ i - 8 < 8 by omega, show i - 8 - 8 < 8 by omega, show 16 + (i - 8 - 8) = i by omega]
  · simp [h0, show ¬ i - 8 < 8 by omega, show ¬ i - 8 - 8 < 8 by omega, show i - 8 - 8 - 8 < 8 by omega,
      show 24 + (i - 8 - 8 - 8) = i by omega]

theorem parseSample_bytes (a : AxisIx) (cycle : Word16) (x : Word32) (v : Word16) (flags : Byte) :
    parseSample a (bytes16 cycle ++ bytes32 x ++ bytes16 v ++ [flags]) =
      some ⟨a, cycle, x, v, ⟨flags.getLsbD 0, flags.getLsbD 1, flags.getLsbD 2⟩, false⟩ := by
  change some (⟨a, word16 _ _, word32 _ _ _ _, word16 _ _, StatusFlags.ofByte flags, false⟩ : SampleFrame) = _
  rw [word16_bytes16, word32_bytes32, word16_bytes16]
  rfl

theorem parseEcho_bytes (a : AxisIx) (word : Word16) : parseEcho a (bytes16 word ++ [0]) = some ⟨a, word, .forward, false⟩ ∧
    parseEcho a (bytes16 word ++ [1]) = some ⟨a, word, .reversed, false⟩ := by
  constructor
  · change some (⟨a, word16 _ _, .forward, false⟩ : EchoFrame) = _
    rw [word16_bytes16]
  · change some (⟨a, word16 _ _, .reversed, false⟩ : EchoFrame) = _
    rw [word16_bytes16]

theorem parseSample_isSome (a : AxisIx) (p : List Byte) : (parseSample a p).isSome = true ↔ p.length = 9 := by
  unfold parseSample
  split
  · simp
  · next hno =>
    refine ⟨fun h => absurd h (by simp), fun h => ?_⟩
    match p, h with
    | [c1, c0, p3, p2, p1, p0, v1, v0, f], _ => exact absurd rfl (hno c1 c0 p3 p2 p1 p0 v1 v0 f)

theorem mounting_isSome (m : Byte) : (Mounting.ofByte m).isSome = true ↔ m.toNat ≤ 1 := by
  have h0 : m = 0 ↔ m.toNat = 0 := BitVec.toNat_eq
  have h1 : m = 1 ↔ m.toNat = 1 := BitVec.toNat_eq
  unfold Mounting.ofByte
  split
  · next h =>
    simp only [Option.isSome_some, true_iff]
    have := h0.mp h
    omega
  · next hn =>
    split
    · next h =>
      simp only [Option.isSome_some, true_iff]
      have := h1.mp h
      omega
    · next hn1 =>
      simp only [Option.isSome_none, Bool.false_eq_true, false_iff]
      intro hle
      have h2 := mt h0.mpr hn
      have h3 := mt h1.mpr hn1
      omega

theorem parseEcho_isSome (a : AxisIx) (p : List Byte) : (parseEcho a p).isSome = true ↔
    ∃ w1 w0 m : Byte, p = [w1, w0, m] ∧ m.toNat ≤ 1 := by
  unfold parseEcho
  split
  · next w1 w0 m =>
    rw [Option.isSome_map, mounting_isSome]
    exact ⟨fun h => ⟨w1, w0, m, rfl, h⟩, fun ⟨_, _, _, heq, h⟩ => by cases heq; exact h⟩
  · next hno =>
    refine ⟨fun h => absurd h (by simp), fun ⟨w1, w0, m, h, _⟩ => absurd h (hno w1 w0 m)⟩

/-! ## The checks at each port -/

theorem isStation_iff (b : Byte) : isStation b = true ↔ 1 ≤ b.toNat ∧ b.toNat ≤ 32 := by
  simp only [isStation, Bool.and_eq_true, decide_eq_true_eq]

theorem clAccepts_iff (f : RawFrame) : clAccepts f = true ↔
    (f.kind = 1 ∧ (f.address.toNat ≤ 63 ∨ f.address = 0xFF#8)) ∨
      (f.kind = 2 ∧ f.address = 0xFF#8 ∧ f.payload = []) ∨ (f.kind = 3 ∧ f.address = 0xFF#8) := by
  unfold clAccepts
  by_cases h1 : f.kind = 1
  · rw [if_pos (show f.kind = kindSetpoint from h1)]
    simp [h1, Nat.lt_succ_iff]
  · rw [if_neg (show ¬ f.kind = kindSetpoint from h1)]
    by_cases h3 : f.kind = 3
    · rw [if_pos (show f.kind = kindRequest from h3)]
      simp [h3]
    · rw [if_neg (show ¬ f.kind = kindRequest from h3)]
      by_cases h2 : f.kind = 2
      · rw [if_pos (show f.kind = kindAlive from h2)]
        simp [h2]
      · rw [if_neg (show ¬ f.kind = kindAlive from h2)]
        simp only [h1, h2, h3, false_and, or_self, Bool.false_eq_true]

theorem segAccepts_iff (f : RawFrame) : segAccepts f = true ↔ 1 ≤ f.address.toNat ∧ f.address.toNat ≤ 32 ∧
    ((f.kind = 6 ∧ f.payload.length = 9) ∨
      (f.kind = 10 ∧ ∃ w1 w0 m : Byte, f.payload = [w1, w0, m] ∧ m.toNat ≤ 1)) := by
  unfold segAccepts
  rw [Bool.and_eq_true, isStation_iff, and_assoc]
  refine and_congr_right fun _ => and_congr_right fun _ => ?_
  by_cases h6 : f.kind = 6
  · rw [if_pos (show f.kind = kindSample from h6), parseSample_isSome]
    simp [h6]
  · rw [if_neg (show ¬ f.kind = kindSample from h6)]
    by_cases h10 : f.kind = 10
    · rw [if_pos (show f.kind = kindEcho from h10), parseEcho_isSome]
      simp [h10]
    · rw [if_neg (show ¬ f.kind = kindEcho from h10)]
      simp only [h6, h10, false_and, or_self, Bool.false_eq_true]

/-- Settles O10. -/
theorem checkWordMatchesExample : Obligations.CheckWordMatchesExample := by
  refine ⟨by decide +kernel, parseFrame_buildFrame, fun bytes f => ?_, fun bytes f => ?_, parseSample_bytes, parseEcho_bytes⟩
  · unfold clFrameOf
    rw [Option.filter_eq_some_iff, parseFrame_eq_some_iff, clAccepts_iff, and_assoc]
  · unfold segFrameOf
    rw [Option.filter_eq_some_iff, parseFrame_eq_some_iff, segAccepts_iff, and_assoc]
    constructor
    · rintro ⟨hb, -, h⟩
      exact ⟨hb, h⟩
    · rintro ⟨hb, h1, h2, h⟩
      refine ⟨hb, ?_, h1, h2, h⟩
      rcases h with ⟨-, h⟩ | ⟨-, w1, w0, m, h, -⟩
      · omega
      · rw [h]
        simp

end Sys2Proof.Machine
end

section
/-! PROOF. One choice of a segment's arbiter, at the end of a transmission. -/

namespace Sys2Proof.Machine

/-! ## The idle arbiters -/

theorem idleWaiting_eq_nil {e : Egress} (h : ∀ k : SegIx, e.tx[k].isSome = true ∨ e.waiting k = false) :
    e.idleWaiting = [] := by
  refine List.filter_eq_nil_iff.mpr fun k _ hk => ?_
  obtain ⟨htx, hw⟩ := Bool.and_eq_true_iff.mp hk
  rcases h k with h | h
  · rw [Option.isNone_iff_eq_none.mp htx] at h
    cases h
  · rw [h] at hw
    cases hw

theorem idleWaiting_eq_one {e : Egress} {sg : SegIx} (htx : e.tx[sg] = none) (hw : e.waiting sg = true)
    (h : ∀ k : SegIx, k ≠ sg → e.tx[k].isSome = true ∨ e.waiting k = false) : e.idleWaiting = [sg] := by
  have hkey : ∀ k : SegIx, (e.tx[k].isNone && e.waiting k) = (k == sg) := fun k => by
    by_cases hk : k = sg
    · subst hk
      rw [htx, hw, beq_self_eq_true]
      rfl
    · rw [beq_eq_false_iff_ne.mpr hk]
      rcases h k hk with h | h
      · rw [Option.isNone_eq_false_iff.mpr h]
        rfl
      · rw [h, Bool.and_false]
  unfold Egress.idleWaiting
  simp only [hkey]
  fin_cases sg <;> rfl

/-- A state with one arbiter idle and waiting, whose choice leaves no such arbiter. -/
theorem settle_once {u : State} {sg : SegIx} (hidle : u.egress.idleWaiting = [sg])
    (hdone : (u.choose sg).egress.idleWaiting = []) : u.settle = u.choose sg := by
  have hlater : (u.choose sg).settleFor 4095 = u.choose sg := by
    unfold State.settleFor State.pick
    rw [hdone]
  refine Eq.trans ?_ hlater
  change State.settleFor (4095 + 1) u = _
  rw [State.settleFor, hidle]
  rfl

/-! ## What a choice comes to -/

theorem pick_nil {α : Type} {l : List α} (s : State) (h : l = []) : s.pick l = (none, s) := by
  rw [h]
  rfl

theorem sendStop_station {sg : SegIx} {a : AxisIx} {s : State} (hs : s.Sound)
    (h : isStation s.tables.axes[a].held.station = true) : s.sendStop sg a = { s with egress := { s.egress with
      stopSet := upd s.egress.stopSet sg (·.filter (· != a))
      tx := s.egress.tx.set sg (some (stopFrame s.tables.axes[a].held.station)) } } := by
  unfold State.sendStop
  simp only [touch_sound _ _ (s.modEgress _) hs]
  exact if_pos h

theorem choose_stop {sg : SegIx} {s : State} (hs : s.Sound) (h : s.egress.stopSet[sg] ≠ [])
    (hst : ∀ a ∈ s.egress.stopSet[sg], isStation s.tables.axes[a].held.station = true) :
    ∃ a ∈ s.egress.stopSet[sg], ∃ n, s.choose sg = { s with
      freeCount := n
      egress := { s.egress with
        stopSet := upd s.egress.stopSet sg (·.filter (· != a))
        tx := s.egress.tx.set sg (some (stopFrame s.tables.axes[a].held.station)) } } := by
  obtain ⟨a, ha, hpick⟩ := pick_mem _ s h
  have hframe := pick_frame s.egress.stopSet[sg] s
  obtain ⟨o, u, hu⟩ : ∃ o u, s.pick s.egress.stopSet[sg] = (o, u) := ⟨_, _, rfl⟩
  rw [hu] at hpick hframe
  cases hpick
  dsimp only at hframe
  have htables : u.tables = s.tables := by rw [hframe]
  refine ⟨a, ha, u.freeCount, ?_⟩
  unfold State.choose
  rw [hu]
  dsimp only
  rw [sendStop_station (Sound.of_tables hs htables) (by rw [htables]; exact hst a ha), hframe]

theorem choose_beacon {sg : SegIx} {s : State} (h : s.egress.stopSet[sg] = []) (hb : s.egress.beacon[sg] = true) :
    s.choose sg = s.sendBeacon sg := by
  unfold State.choose
  rw [pick_nil s h]
  exact if_pos hb

theorem sendBeacon_eq (sg : SegIx) (s : State) : s.sendBeacon sg = { s with egress := { s.egress with
    beacon := s.egress.beacon.set sg false
    tx := s.egress.tx.set sg (some (beaconFrame s.timer.cycle s.timer.period)) } } := rfl

theorem choose_setpoint {sg : SegIx} {s : State} {q : SetpointEntry} {l : List SetpointEntry}
    (h : s.egress.stopSet[sg] = []) (hb : s.egress.beacon[sg] = false) (hq : s.egress.setpoints[sg] = q :: l) :
    s.choose sg = s.sendSetpoint sg q := by
  unfold State.choose
  rw [pick_nil s h]
  dsimp only
  rw [if_neg (Bool.eq_false_iff.mp hb), hq]

theorem choose_check {sg : SegIx} {s : State} {c : CheckFrame} (h : s.egress.stopSet[sg] = [])
    (hb : s.egress.beacon[sg] = false) (hq : s.egress.setpoints[sg] = []) (hc : s.egress.checkSlot[sg] = some c) :
    s.choose sg = s.sendCheck sg c := by
  unfold State.choose
  rw [pick_nil s h]
  dsimp only
  rw [if_neg (Bool.eq_false_iff.mp hb), hq]
  dsimp only
  rw [hc]

theorem sendSetpoint_clean {sg : SegIx} {q : SetpointEntry} {s : State} (hs : s.Sound)
    (hp : s.tables.axes[q.axis].poisoned = false) : s.sendSetpoint sg q = { s with
      egress := { s.egress with
        setpoints := upd s.egress.setpoints sg List.tail
        tx := s.egress.tx.set sg (some (setpointFrame s.tables.axes[q.axis].held.station q.mode
          (byPolarity s.tables.axes[q.axis].held.mirrored q.target) q.cap)) } } := by
  unfold State.sendSetpoint
  simp only [touch_sound _ _ (s.modEgress _) hs]
  exact if_neg (Bool.eq_false_iff.mp hp)

theorem sendCheck_clean {sg : SegIx} {c : CheckFrame} {s : State} (hs : s.Sound)
    (hp : s.tables.axes[c.axis].poisoned = false) : s.sendCheck sg c = { s with
      checks := upd s.checks sg fun r => { r with sent := true }
      egress := { s.egress with
        checkSlot := s.egress.checkSlot.set sg none
        tx := s.egress.tx.set sg (some (checkFrame s.tables.axes[c.axis].held.station c.word)) } } := by
  unfold State.sendCheck
  simp only [touch_sound _ _ (s.modEgress _) hs]
  exact if_neg (Bool.eq_false_iff.mp hp)

/-! ## The end of a transmission -/

/-- The state as the arbiter of the segment finds it when its frame has left (R52). -/
def State.freed (sg : SegIx) (s : State) : State :=
  { s with egress := { s.egress with tx := s.egress.tx.set sg none } }

theorem freed_tx (sg : SegIx) (s : State) : (s.freed sg).egress.tx[sg] = none := by
  change (s.egress.tx.set sg none)[sg] = none
  rw [set_get, if_pos rfl]

theorem freed_quiet {sg : SegIx} {s : State} (h : s.othersQuiet sg) (k : SegIx) (hk : k ≠ sg) :
    (s.freed sg).egress.tx[k].isSome = true ∨ (s.freed sg).egress.waiting k = false := by
  change (s.egress.tx.set sg none)[k].isSome = true ∨ _
  rw [set_get, if_neg (Ne.symm hk)]
  exact h k hk

theorem waiting_iff (e : Egress) (sg : SegIx) : e.waiting sg = true ↔
    e.stopSet[sg] ≠ [] ∨ e.beacon[sg] = true ∨ e.setpoints[sg] ≠ [] ∨ e.checkSlot[sg].isSome = true := by
  simp only [Egress.waiting, Bool.or_eq_true, Bool.not_eq_true', List.isEmpty_eq_false_iff, or_assoc, ne_eq]

theorem set_get_same {α : Type} {n : Nat} (v : Vector α n) (i : Fin n) (x : α) : (v.set i x)[i] = x := by
  rw [set_get, if_pos rfl]

theorem set_get_ne {α : Type} {n : Nat} (v : Vector α n) {i j : Fin n} (h : i ≠ j) (x : α) : (v.set i x)[j] = v[j] := by
  rw [set_get, if_neg h]

/-- One choice makes the transmitter busy, and the other segments' sources are as they were. -/
theorem settle_freed {sg : SegIx} {s v : State} (hq : s.othersQuiet sg) (hw : s.egress.waiting sg = true)
    (hv : (s.freed sg).choose sg = v) (htx : v.egress.tx[sg].isSome = true)
    (hother : ∀ k : SegIx, k ≠ sg →
      v.egress.tx[k] = (s.freed sg).egress.tx[k] ∧ v.egress.waiting k = (s.freed sg).egress.waiting k) :
    (s.freed sg).settle = v := by
  rw [← hv]
  refine settle_once (idleWaiting_eq_one (freed_tx sg s) hw (freed_quiet hq)) (idleWaiting_eq_nil fun k => ?_)
  rw [hv]
  by_cases hk : k = sg
  · subst hk
    exact .inl htx
  · obtain ⟨h1, h2⟩ := hother k hk
    rw [h1, h2]
    exact freed_quiet hq k hk

theorem same_freed (sg : SegIx) (s : State) : SameButEgress s (s.freed sg) := ⟨rfl, fun _ => rfl⟩

/-- Settles O13. -/
theorem egressServesStopsFirst : Obligations.EgressServesStopsFirst := by
  intro s sg hs hq
  have hu : (s.freed sg).Sound := Sound.of_tables hs rfl
  have hsame := (same_freed sg s).trans (settle_same _ hu)
  refine ⟨(s.freed sg).settle, rfl, hsame, fun hst hne => ?_, fun hstop hb => ?_, fun q l hstop hb hset hp => ?_,
    fun c hstop hb hset hc hp => ?_, fun hidle => ?_⟩
  · obtain ⟨a, ha, n, hv⟩ := choose_stop hu hne hst
    have hset := settle_freed hq ((waiting_iff _ _).mpr (.inl hne)) hv
      (by dsimp only; rw [set_get_same]; rfl) fun k hk => by
        simp only [Egress.waiting]
        rw [set_get_ne _ (Ne.symm hk), upd_get_ne _ (Ne.symm hk)]
        exact ⟨rfl, rfl⟩
    rw [hset]
    exact ⟨a, ha, set_get_same _ _ _, upd_get_same _ _ _, rfl, rfl, rfl⟩
  · have hv := (choose_beacon (s := s.freed sg) hstop hb).trans (sendBeacon_eq _ _)
    have hset := settle_freed hq ((waiting_iff _ _).mpr (.inr (.inl hb))) hv
      (by dsimp only; rw [set_get_same]; rfl) fun k hk => by
        simp only [Egress.waiting]
        rw [set_get_ne _ (Ne.symm hk), set_get_ne _ (Ne.symm hk)]
        exact ⟨rfl, rfl⟩
    rw [hset]
    exact ⟨set_get_same _ _ _, set_get_same _ _ _, rfl, rfl⟩
  · have hv := (choose_setpoint (s := s.freed sg) hstop hb hset).trans (sendSetpoint_clean hu hp)
    have hset' := settle_freed hq ((waiting_iff _ _).mpr (.inr (.inr (.inl (by rw [hset]; simp))))) hv
      (by dsimp only; rw [set_get_same]; rfl) fun k hk => by
        simp only [Egress.waiting]
        rw [set_get_ne _ (Ne.symm hk), upd_get_ne _ (Ne.symm hk)]
        exact ⟨rfl, rfl⟩
    rw [hset']
    refine ⟨set_get_same _ _ _, ?_, rfl⟩
    change (upd s.egress.setpoints sg List.tail)[sg] = l
    rw [upd_get_same, hset]
    rfl
  · have hv := (choose_check (s := s.freed sg) hstop hb hset hc).trans (sendCheck_clean hu hp)
    have hset' := settle_freed hq ((waiting_iff _ _).mpr (.inr (.inr (.inr (by rw [hc]; rfl))))) hv
      (by dsimp only; rw [set_get_same]; rfl) fun k hk => by
        simp only [Egress.waiting]
        rw [set_get_ne _ (Ne.symm hk), set_get_ne _ (Ne.symm hk)]
        exact ⟨rfl, rfl⟩
    rw [hset']
    exact ⟨set_get_same _ _ _, set_get_same _ _ _, upd_get_same _ _ _⟩
  · refine settle_idle _ (idleWaiting_eq_nil fun k => ?_)
    by_cases hk : k = sg
    · subst hk
      exact .inr hidle
    · exact freed_quiet hq k hk

end Sys2Proof.Machine
end

section
/-! PROOF. The walk of the control-link scheduler, and the loads it makes. -/

namespace Sys2Proof.Machine

/-! ## The first waiting phase -/

theorem firstPhase_some {c : ClSide} {low high : Nat} {k : Fin 32} (h : c.firstPhase low high = some k) :
    (low ≤ k.val ∧ k.val < high ∧ c.waiting c.schedule.live[k] = true) ∧
      ∀ j : Fin 32, j < k → low ≤ j.val → j.val < high → c.waiting c.schedule.live[j] = false := by
  obtain ⟨hk, i, hi, hik, hbefore⟩ := List.find?_eq_some_iff_getElem.mp h
  simp only [Bool.and_eq_true, decide_eq_true_eq, and_assoc] at hk
  refine ⟨hk, fun j hj hlow hhigh => ?_⟩
  have hki : k.val = i := by
    rw [← hik]
    simp
  have hj' := hbefore j.val (by omega)
  simp only [List.getElem_finRange, Fin.cast_mk, Fin.eta, Bool.not_eq_true', Bool.and_eq_false_iff,
    decide_eq_false_iff_not] at hj'
  rcases hj' with (hj' | hj') | hj'
  · exact absurd hlow hj'
  · exact absurd hhigh hj'
  · exact hj'

theorem firstPhase_none {c : ClSide} {low high : Nat} (h : c.firstPhase low high = none) (j : Fin 32)
    (hlow : low ≤ j.val) (hhigh : j.val < high) : c.waiting c.schedule.live[j] = false := by
  have hj := List.find?_eq_none.mp h j (List.mem_finRange j)
  simpa [hlow, hhigh] using hj

theorem firstPhase_eq_some {c : ClSide} {low high : Nat}
    (h : ∃ j : Fin 32, low ≤ j.val ∧ j.val < high ∧ c.waiting c.schedule.live[j] = true) :
    ∃ k, c.firstPhase low high = some k := by
  obtain ⟨j, hlow, hhigh, hw⟩ := h
  cases hf : c.firstPhase low high with
  | some k => exact ⟨k, rfl⟩
  | none =>
    rw [firstPhase_none hf j hlow hhigh] at hw
    cases hw

theorem mem_source_all (src : Source) : src ∈ Source.all := by
  cases src with
  | reply | report => simp [Source.all]
  | seg n => fin_cases n <;> simp [Source.all]

/-- A table that names every source has a phase of each (R157). -/
theorem exists_phase {t : Vector Source 32} (h : missingSource t = none) (src : Source) : ∃ k : Fin 32, t[k] = src := by
  have hall := List.find?_eq_none.mp h src (mem_source_all src)
  have hmem : src ∈ t := by simpa using hall
  obtain ⟨i, hi, heq⟩ := Vector.mem_iff_getElem.mp hmem
  exact ⟨⟨i, hi⟩, heq⟩

theorem exists_waiting_phase {c : ClSide} (h : missingSource c.schedule.live = none) (hw : c.anyWaiting = true) :
    ∃ k : Fin 32, c.waiting c.schedule.live[k] = true := by
  obtain ⟨src, -, hsrc⟩ := List.any_eq_true.mp hw
  obtain ⟨k, hk⟩ := exists_phase h src
  exact ⟨k, by rw [hk]; exact hsrc⟩

theorem anyWaiting_iff (c : ClSide) : c.anyWaiting = true ↔ ∃ src, c.waiting src = true := by
  unfold ClSide.anyWaiting
  rw [List.any_eq_true]
  exact ⟨fun ⟨src, _, h⟩ => ⟨src, h⟩, fun ⟨src, h⟩ => ⟨src, mem_source_all src, h⟩⟩

/-! ## What taking a phase and queueing a report leave -/

theorem takeFrom_schedule (c : ClSide) (src : Source) : (c.takeFrom src).schedule = c.schedule := by
  unfold ClSide.takeFrom
  split <;> split <;> rfl

theorem takePhase_schedule (c : ClSide) (k : Fin 32) :
    (c.takePhase k).schedule = { c.schedule with pointer := k + 1 } := by
  unfold ClSide.takePhase
  dsimp only
  rw [takeFrom_schedule]

theorem takePhase_of_takeFrom {c d : ClSide} {k : Fin 32} (h : c.takeFrom c.schedule.live[k] = d) :
    c.takePhase k = { d with schedule := (c.takePhase k).schedule } := by
  unfold ClSide.takePhase
  rw [h]

theorem queueReport_frame (ctx : PostContext) (b : ReportBody) (c : ClSide) : c.queueReport ctx b = { c with
    reports := (c.queueReport ctx b).reports, overrunTotal := (c.queueReport ctx b).overrunTotal } := by
  unfold ClSide.queueReport ClSide.placeReport
  split
  · split
    · rfl
    · split <;> rfl
  · rfl

theorem placeReport_ne_nil (r : Report) (c : ClSide) : (c.placeReport r).reports ≠ [] := by
  unfold ClSide.placeReport
  split
  · simp
  · next hfull =>
    split
    · simp
    · intro hnil
      have hlen := congrArg List.length hnil
      rw [bumpNewest_length] at hlen
      exact hfull (by rw [hlen]; decide)

theorem queueReport_reports {ctx : PostContext} {b : ReportBody} {c : ClSide}
    (h : reportEnabled ctx.mask b.kind = true ∨ c.reports ≠ []) : (c.queueReport ctx b).reports ≠ [] := by
  unfold ClSide.queueReport
  split
  · exact placeReport_ne_nil _ _
  · next hoff => exact h.resolve_left hoff

/-- What waited still waits when a report has been queued. -/
theorem queueReport_waiting {ctx : PostContext} {b : ReportBody} {c : ClSide} {src : Source}
    (h : c.waiting src = true) : (c.queueReport ctx b).waiting src = true := by
  cases src with
  | reply =>
    rw [queueReport_frame]
    exact h
  | report =>
    have hne : c.reports ≠ [] := by simpa [ClSide.waiting] using h
    simpa [ClSide.waiting] using queueReport_reports (ctx := ctx) (b := b) (.inr hne)
  | seg n =>
    rw [queueReport_frame]
    exact h

theorem queueReport_schedule (ctx : PostContext) (b : ReportBody) (c : ClSide) :
    (c.queueReport ctx b).schedule = c.schedule := by rw [queueReport_frame]

theorem queueReport_tx (ctx : PostContext) (b : ReportBody) (c : ClSide) : (c.queueReport ctx b).tx = c.tx := by
  rw [queueReport_frame]

/-! ## A selection -/

theorem select_ahead {ctx : PostContext} {c : ClSide} {k : Fin 32}
    (hp : c.schedule.pointer ≠ 0 ∨ c.schedule.loadPending = false)
    (h : c.firstPhase c.schedule.pointer.val 32 = some k) : c.select ctx = c.takePhase k := by
  unfold ClSide.select
  rw [if_neg, h]
  intro hno
  obtain ⟨h1, h2⟩ := Bool.and_eq_true_iff.mp hno
  rcases hp with hp | hp
  · exact hp (of_decide_eq_true h1)
  · rw [hp] at h2
    cases h2

theorem select_round {ctx : PostContext} {c : ClSide} (hp : c.schedule.loadPending = false)
    (h : c.firstPhase c.schedule.pointer.val 32 = none) :
    c.select ctx = c.takeFound (c.firstPhase 0 c.schedule.pointer.val) := by
  unfold ClSide.select
  rw [if_neg (by rw [hp, Bool.and_false]; decide), h]
  dsimp only
  rw [if_neg (by rw [hp]; decide)]

theorem select_load {ctx : PostContext} {c : ClSide} (hp : c.schedule.loadPending = true)
    (h : c.schedule.pointer = 0 ∨ c.firstPhase c.schedule.pointer.val 32 = none) :
    c.select ctx = (c.load ctx .phase0).takeFound ((c.load ctx .phase0).firstPhase 0 32) := by
  unfold ClSide.select
  by_cases h0 : c.schedule.pointer = 0
  · rw [if_pos (Bool.and_eq_true_iff.mpr ⟨decide_eq_true h0, hp⟩)]
  · rw [if_neg (fun hno => h0 (of_decide_eq_true (Bool.and_eq_true_iff.mp hno).1)), h.resolve_left h0]
    exact if_pos hp

/-- The phases of a full turn from the pointer, one after the other (R155). -/
theorem turn_lt {p k j : Fin 32} (h : (j - p).val < (k - p).val) :
    (p ≤ k → p ≤ j ∧ j < k) ∧ (k < p → p ≤ j ∨ j < k) := by
  simp only [Fin.sub_def, Fin.le_def, Fin.lt_def] at *
  omega

/-- A selection with no load to make takes the first waiting phase of the turn (R155). -/
theorem select_turn {ctx : PostContext} {c : ClSide} (hp : c.schedule.loadPending = false)
    (hw : ∃ k : Fin 32, c.waiting c.schedule.live[k] = true) : ∃ k : Fin 32, c.select ctx = c.takePhase k ∧
      c.waiting c.schedule.live[k] = true ∧
      ∀ j : Fin 32, (j - c.schedule.pointer).val < (k - c.schedule.pointer).val →
        c.waiting c.schedule.live[j] = false := by
  cases hf : c.firstPhase c.schedule.pointer.val 32 with
  | some k =>
    obtain ⟨⟨hlow, -, hwk⟩, hfirst⟩ := firstPhase_some hf
    refine ⟨k, select_ahead (.inr hp) hf, hwk, fun j hj => ?_⟩
    obtain ⟨hpj, hjk⟩ := (turn_lt hj).1 hlow
    exact hfirst j hjk hpj j.isLt
  | none =>
    have hbehind : ∃ j : Fin 32, 0 ≤ j.val ∧ j.val < c.schedule.pointer.val ∧ c.waiting c.schedule.live[j] = true := by
      obtain ⟨k, hk⟩ := hw
      refine ⟨k, Nat.zero_le _, Nat.lt_of_not_le fun hle => ?_, hk⟩
      rw [firstPhase_none hf k hle k.isLt] at hk
      cases hk
    obtain ⟨k, hk⟩ := firstPhase_eq_some hbehind
    obtain ⟨⟨-, hlt, hwk⟩, hfirst⟩ := firstPhase_some hk
    refine ⟨k, ?_, hwk, fun j hj => ?_⟩
    · rw [select_round hp hf, hk]
      rfl
    · rcases (turn_lt hj).2 hlt with hpj | hjk
      · exact firstPhase_none hf j hpj j.isLt
      · exact hfirst j hjk (Nat.zero_le _) (lt_trans hjk hlt)

/-- A selection from phase 0 on takes the first waiting phase (R155, R158). -/
theorem takeFound_zero {c : ClSide} (hlive : missingSource c.schedule.live = none) (hw : c.anyWaiting = true) :
    ∃ k : Fin 32, c.takeFound (c.firstPhase 0 32) = c.takePhase k ∧ c.waiting c.schedule.live[k] = true ∧
      ∀ j < k, c.waiting c.schedule.live[j] = false := by
  obtain ⟨j, hj⟩ := exists_waiting_phase hlive hw
  obtain ⟨k, hk⟩ := firstPhase_eq_some ⟨j, Nat.zero_le _, j.isLt, hj⟩
  obtain ⟨⟨-, -, hwk⟩, hfirst⟩ := firstPhase_some hk
  rw [hk]
  exact ⟨k, rfl, hwk, fun j hj => hfirst j hj (Nat.zero_le _) j.isLt⟩

/-! ## The end of a transmission -/

theorem execClTransmissionEnd_busy {s : State} (h : s.cl.tx.isSome = true) :
    exec .clTransmissionEnd s = .next { s with cl := s.cl.endTransmission s.postContext } :=
  congrArg Host.Outcome.next (if_pos h)

theorem endTransmission_waiting {ctx : PostContext} {c : ClSide} (h : c.anyWaiting = true) :
    c.endTransmission ctx = ({ c with tx := none } : ClSide).select ctx := if_pos h

theorem endTransmission_load {ctx : PostContext} {c : ClSide} (h : c.anyWaiting = false)
    (hp : c.schedule.loadPending = true) : c.endTransmission ctx = ({ c with tx := none } : ClSide).loadIdle ctx :=
  (if_neg (Bool.eq_false_iff.mp h)).trans (if_pos hp)

theorem endTransmission_idle {ctx : PostContext} {c : ClSide} (h : c.anyWaiting = false)
    (hp : c.schedule.loadPending = false) : c.endTransmission ctx = { c with tx := none } :=
  (if_neg (Bool.eq_false_iff.mp h)).trans (if_neg (Bool.eq_false_iff.mp hp))

/-- The CL side after a load, up to the selection that follows (R158). -/
def ClSide.loaded (ctx : PostContext) (way : LoadWay) (k₀ : Fin 32) (c : ClSide) : ClSide :=
  ({ c with
      tx := none
      schedule := { c.schedule with live := c.schedule.shadow, loadPending := false, pointer := k₀ } } : ClSide).queueReport
    ctx (.scheduleLoaded (phaseCounts c.schedule.shadow) way)

theorem loaded_schedule (ctx : PostContext) (way : LoadWay) (k₀ : Fin 32) (c : ClSide) : (c.loaded ctx way k₀).schedule =
    { c.schedule with live := c.schedule.shadow, loadPending := false, pointer := k₀ } := queueReport_schedule _ _ _

theorem load_eq_loaded (ctx : PostContext) (way : LoadWay) (c : ClSide) :
    ({ c with tx := none } : ClSide).load ctx way = c.loaded ctx way c.schedule.pointer := rfl

theorem loadIdle_eq_loaded (ctx : PostContext) (c : ClSide) :
    ({ c with tx := none } : ClSide).loadIdle ctx = (c.loaded ctx .idle 0).kick ctx := rfl

theorem loaded_anyWaiting {ctx : PostContext} {way : LoadWay} {k₀ : Fin 32} {c : ClSide}
    (h : reportEnabled ctx.mask .scheduleLoaded = true ∨ c.anyWaiting = true) : (c.loaded ctx way k₀).anyWaiting = true := by
  rcases h with h | h
  · refine (anyWaiting_iff _).mpr ⟨.report, ?_⟩
    simpa [ClSide.waiting, ClSide.loaded] using queueReport_reports (.inl h)
  · obtain ⟨src, hsrc⟩ := (anyWaiting_iff _).mp h
    refine (anyWaiting_iff _).mpr ⟨src, queueReport_waiting ?_⟩
    cases src <;> exact hsrc

theorem loaded_takes {ctx : PostContext} {way : LoadWay} {k₀ : Fin 32} {c : ClSide}
    (hshadow : missingSource c.schedule.shadow = none) (hw : (c.loaded ctx way k₀).anyWaiting = true) :
    ∃ k : Fin 32, (c.loaded ctx way k₀).takeFound ((c.loaded ctx way k₀).firstPhase 0 32) =
        (c.loaded ctx way k₀).takePhase k ∧
      (c.loaded ctx way k₀).waiting (c.loaded ctx way k₀).schedule.live[k] = true ∧
      ∀ j < k, (c.loaded ctx way k₀).waiting (c.loaded ctx way k₀).schedule.live[j] = false :=
  takeFound_zero (by rw [loaded_schedule]; exact hshadow) hw

theorem loadIdle_silent {ctx : PostContext} {c : ClSide} (hw : c.anyWaiting = false)
    (h : reportEnabled ctx.mask .scheduleLoaded = false) : (c.loaded ctx .idle 0).kick ctx = c.loaded ctx .idle 0 := by
  have hl : c.loaded ctx .idle 0 = { c with
      tx := none
      schedule := { c.schedule with live := c.schedule.shadow, loadPending := false, pointer := 0 } } :=
    queueReport_masked h
  refine if_neg fun hno => ?_
  have hany := (Bool.and_eq_true_iff.mp hno).2
  rw [hl] at hany
  have heq : ({ c with
      tx := none
      schedule := { c.schedule with live := c.schedule.shadow, loadPending := false, pointer := 0 } } : ClSide).anyWaiting =
    c.anyWaiting := rfl
  rw [heq, hw] at hany
  cases hany

theorem loadIdle_reports {ctx : PostContext} {c : ClSide} (hshadow : missingSource c.schedule.shadow = none)
    (h : reportEnabled ctx.mask .scheduleLoaded = true) : ∃ k : Fin 32,
      (c.loaded ctx .idle 0).kick ctx = (c.loaded ctx .idle 0).takePhase k ∧
      (c.loaded ctx .idle 0).waiting (c.loaded ctx .idle 0).schedule.live[k] = true ∧
      ∀ j < k, (c.loaded ctx .idle 0).waiting (c.loaded ctx .idle 0).schedule.live[j] = false := by
  have hw : (c.loaded ctx .idle 0).anyWaiting = true := loaded_anyWaiting (.inl h)
  obtain ⟨j, hj⟩ := exists_waiting_phase (by rw [loaded_schedule]; exact hshadow) hw
  have hptr : (c.loaded ctx .idle 0).schedule.pointer = 0 := by rw [loaded_schedule]
  have hpend : (c.loaded ctx .idle 0).schedule.loadPending = false := by rw [loaded_schedule]
  have htx : (c.loaded ctx .idle 0).tx = none := queueReport_tx _ _ _
  obtain ⟨k, hsel, hwk, hfirst⟩ := select_turn (ctx := ctx) hpend ⟨j, hj⟩
  refine ⟨k, ?_, hwk, fun j hj => hfirst j ?_⟩
  · refine (if_pos ?_).trans hsel
    rw [htx, hw]
    rfl
  · rw [hptr, sub_zero, sub_zero]
    exact hj

/-- Settles O14. -/
theorem scheduleTakesFirstWaitingPhase : Obligations.ScheduleTakesFirstWaitingPhase := by
  refine ⟨fun c k => ⟨takePhase_schedule c k, fun r rs hl hq => ?_, fun r rs hl hq => ?_, fun n e es hl hq => ?_⟩,
    fun s htx hp => ⟨fun hw => ?_, fun hw hlive => ?_⟩,
    fun s way k₀ loaded htx hp hshadow hloaded => ⟨fun hw hway hk => ?_, fun hw hptr hj => ?_,
      fun hw hway hk hnone => ?_⟩⟩
  · have hreply : c.takeFrom c.schedule.live[k] = { c with replies := rs, tx := some r.frames } := by
      rw [hl]
      unfold ClSide.takeFrom
      dsimp only
      rw [hq]
    exact takePhase_of_takeFrom hreply
  · have hreport : c.takeFrom c.schedule.live[k] = { c with reports := rs, tx := some [r.frame] } := by
      rw [hl]
      unfold ClSide.takeFrom
      dsimp only
      rw [hq]
    exact takePhase_of_takeFrom hreport
  · have hseg : c.takeFrom c.schedule.live[k] = { c with forward := c.forward.set n es, tx := some [forwardFrame e] } := by
      rw [hl]
      unfold ClSide.takeFrom
      dsimp only
      rw [hq]
    exact takePhase_of_takeFrom hseg
  · rw [execClTransmissionEnd_busy htx, endTransmission_idle hw hp]
  · obtain ⟨k, hk⟩ := exists_waiting_phase hlive hw
    obtain ⟨k, hsel, hwk, hfirst⟩ := select_turn (ctx := s.postContext) (c := { s.cl with tx := none }) hp ⟨k, hk⟩
    refine ⟨k, ?_, hwk, hfirst⟩
    rw [execClTransmissionEnd_busy htx, endTransmission_waiting hw, hsel]
  · subst hway hk
    have hend := endTransmission_load (ctx := s.postContext) hw hp
    rw [loadIdle_eq_loaded] at hend
    have hl : loaded = s.cl.loaded s.postContext .idle 0 := hloaded
    rw [hl, execClTransmissionEnd_busy htx, hend]
    refine ⟨fun h => ?_, fun h => ?_⟩
    · have hsilent := loadIdle_silent (ctx := s.postContext) (c := s.cl) hw h
      rw [hsilent]
    obtain ⟨k, hsel, hwk, hfirst⟩ := loadIdle_reports (ctx := s.postContext) (c := s.cl) hshadow h
    exact ⟨k, by rw [hsel], hwk, hfirst⟩
  · obtain ⟨j, hle, hwj⟩ := hj
    obtain ⟨k, hk⟩ := firstPhase_eq_some (c := { s.cl with tx := none }) (low := s.cl.schedule.pointer.val) (high := 32)
      ⟨j, hle, j.isLt, hwj⟩
    obtain ⟨⟨hlow, -, hwk⟩, hfirst⟩ := firstPhase_some hk
    refine ⟨k, ?_, hlow, hwk, fun j hj hle => hfirst j hj hle j.isLt⟩
    have hsel := select_ahead (ctx := s.postContext) (c := { s.cl with tx := none }) (.inl hptr) hk
    rw [execClTransmissionEnd_busy htx, endTransmission_waiting hw, hsel]
  · subst hway hk
    have hl : loaded = s.cl.loaded s.postContext .phase0 s.cl.schedule.pointer := hloaded
    have hptr : s.cl.schedule.pointer = 0 ∨
        ({ s.cl with tx := none } : ClSide).firstPhase s.cl.schedule.pointer.val 32 = none := by
      refine hnone.imp_right fun h => ?_
      by_contra hne
      obtain ⟨k, hk⟩ := Option.ne_none_iff_exists'.mp hne
      obtain ⟨⟨hlow, -, hwk⟩, -⟩ := firstPhase_some hk
      have hno : s.cl.waiting s.cl.schedule.live[k] = false := h k hlow
      exact absurd (hno.symm.trans hwk) (by decide)
    have hsel := select_load (ctx := s.postContext) (c := { s.cl with tx := none }) hp hptr
    rw [load_eq_loaded] at hsel
    obtain ⟨k, htake, hwk, hfirst⟩ := loaded_takes (ctx := s.postContext) (way := .phase0)
      (k₀ := s.cl.schedule.pointer) hshadow (loaded_anyWaiting (.inr hw))
    rw [hl, execClTransmissionEnd_busy htx, endTransmission_waiting hw, hsel, htake]
    exact ⟨k, rfl, hwk, hfirst⟩

end Sys2Proof.Machine
end

section
/-! PROOF. What a sample's work can change, and the record it leaves. -/

namespace Sys2Proof.Machine

/-! ## What the steps of a sample change -/

/-- What steps 3 to 7 of a sample can change: of the axis records the axis's intrusion flag alone (R61 to R76). -/
structure SampleKept (a : AxisIx) (s t : State) : Prop where
  frame : t = { s with
    axisRec := t.axisRec, pairRec := t.pairRec, waypoints := t.waypoints, zones := t.zones, creep := t.creep
    egress := { s.egress with setpoints := t.egress.setpoints }, inFlight := t.inFlight, cl := t.cl }
  record : ∃ b, t.axisRec = upd s.axisRec a fun r => { r with intrusion := b }

theorem SampleKept.of_frame {a : AxisIx} {s t : State} (h : t = { s with
    pairRec := t.pairRec, waypoints := t.waypoints, zones := t.zones, creep := t.creep
    egress := { s.egress with setpoints := t.egress.setpoints }, inFlight := t.inFlight, cl := t.cl }) :
    SampleKept a s t := by
  have hrec : t.axisRec = s.axisRec := by rw [h]
  refine ⟨?_, s.axisRec[a].intrusion, ?_⟩
  · rw [hrec]
    exact h
  · rw [hrec]
    exact (upd_id _ _ rfl).symm

theorem SampleKept.refl (a : AxisIx) (s : State) : SampleKept a s s := SampleKept.of_frame rfl

theorem SampleKept.trans {a : AxisIx} {s t u : State} (h : SampleKept a s t) (k : SampleKept a t u) :
    SampleKept a s u := by
  obtain ⟨hf, b, hb⟩ := h
  obtain ⟨kf, c, hc⟩ := k
  refine ⟨?_, c, ?_⟩
  · rw [kf, hf]
  · rw [hc, hb, upd_upd]

theorem SampleKept.sound {a : AxisIx} {s t : State} (h : SampleKept a s t) (hs : s.Sound) : t.Sound :=
  Sound.of_tables hs (by rw [h.frame])

theorem envelopeStep_kept (k : Taken) (f : AxisFields) {s : State} (hs : s.Sound) :
    SampleKept k.axis s (s.envelopeStep k f) := by
  rw [envelopeStep_sound k f hs]
  exact ⟨rfl, _, rfl⟩

theorem skewStep_kept (k : Taken) {s : State} (hs : s.Sound) : SampleKept k.axis s (s.skewStep k) := by
  cases hp : s.pairOf k.axis with
  | none =>
    rw [skewStep_noPair hp]
    exact SampleKept.refl _ s
  | some p =>
    cases hb : s.partnerOf p k.axis with
    | none =>
      rw [skewStep_noPartner hs hp hb]
      exact SampleKept.refl _ s
    | some b =>
      rw [skewStep_pair hs hp hb]
      split
      · split
        · rw [evaluateSkew_eq _ _ _ _ _ _ rfl]
          exact SampleKept.of_frame rfl
        · exact SampleKept.refl _ s
      · exact SampleKept.refl _ s

theorem autoRelease_kept (k : Taken) (w : Waypoint) {s : State} (hs : s.Sound) :
    SampleKept k.axis s (s.autoRelease k w).1 := by
  cases hw : w.action with
  | none =>
    rw [autoRelease_none hw]
    exact SampleKept.refl _ s
  | releaseZone z =>
    cases hg : k.group with
    | none =>
      rw [autoRelease_noGroup hw hg]
      exact SampleKept.refl _ s
    | some g =>
      rw [autoRelease_zone hw hg]
      have hrelease := release_sound s hs z g (.autoRelease k.axis)
      obtain ⟨u, hu⟩ : ∃ u, u = (s.release z g (.autoRelease k.axis)).1 := ⟨_, rfl⟩
      dsimp only
      rw [← hu] at hrelease ⊢
      refine SampleKept.of_frame ?_
      rw [hrelease]

theorem waypointStep_kept (k : Taken) {s : State} (hs : s.Sound) : SampleKept k.axis s (s.waypointStep k) := by
  unfold State.waypointStep
  split
  · next w p _ _ =>
    split
    · rw [fire_eq]
      exact (autoRelease_kept k w hs).trans (SampleKept.of_frame rfl)
    · exact SampleKept.refl _ s
  · exact SampleKept.refl _ s

theorem creepStep_kept (k : Taken) {s : State} (hs : s.Sound) : SampleKept k.axis s (s.creepStep k) := by
  unfold State.creepStep
  split
  · split
    · next hrun =>
      rw [addIncrement_running hs hrun]
      exact SampleKept.of_frame rfl
    · exact SampleKept.refl _ s
  · exact SampleKept.refl _ s

theorem forwardStep_kept (k : Taken) (f : AxisFields) (s : State) : SampleKept k.axis s (s.forwardStep k f) := by
  unfold State.forwardStep
  split
  · split
    · exact SampleKept.of_frame rfl
    · exact SampleKept.refl _ s
  · exact SampleKept.refl _ s

theorem judgeSample_kept (k : Taken) (f : AxisFields) {s : State} (hs : s.Sound) :
    SampleKept k.axis s (s.judgeSample k f) := by
  have h1 := envelopeStep_kept k f hs
  have h2 := h1.trans (skewStep_kept k (h1.sound hs))
  have h3 := h2.trans (waypointStep_kept k (h2.sound hs))
  have h4 := h3.trans (creepStep_kept k (h3.sound hs))
  exact h4.trans (forwardStep_kept k f _)

/-! ## The taking of a sample -/

theorem takeSample_overtaken {f : SampleFrame} {s : State} (h : f.overtaken = true) : s.takeSample f = s := if_pos h

theorem takeSample_accepted {f : SampleFrame} {s : State} (ho : f.overtaken = false) (hc : f.cycle = s.timer.cycle) :
    s.takeSample f = s.acceptSample f := (if_neg (Bool.eq_false_iff.mp ho)).trans (if_pos hc)

theorem acceptSample_sound {f : SampleFrame} {s : State} (hs : s.Sound) : s.acceptSample f =
    (let k := s.taken s.tables.axes[f.axis].held.mirrored f
    if s.tables.axes[f.axis].poisoned = true then s.recordSample k
    else (s.recordSample k).judgeSample k s.tables.axes[f.axis].held) := by
  unfold State.acceptSample
  rw [touch_sound _ _ _ hs]

/-- The record of step 2, and what the later steps leave of it. -/
theorem acceptSample_kept {f : SampleFrame} {s : State} (hs : s.Sound) :
    SampleKept f.axis (s.recordSample (s.taken s.tables.axes[f.axis].held.mirrored f)) (s.acceptSample f) := by
  rw [acceptSample_sound hs]
  dsimp only
  split
  · exact SampleKept.refl _ _
  · exact judgeSample_kept (s.taken s.tables.axes[f.axis].held.mirrored f) _
      (Sound.of_tables hs rfl : (s.recordSample (s.taken s.tables.axes[f.axis].held.mirrored f)).Sound)

/-- Settles O40. -/
theorem acceptedSampleIsRecorded : Obligations.AcceptedSampleIsRecorded := by
  intro s sg f rest hhead hs
  obtain ⟨v, hv⟩ : ∃ v : State, v = { s with paths := { s.paths with sample := s.paths.sample.set sg rest } } := ⟨_, rfl⟩
  have hvs : v.Sound := Sound.of_tables hs (by rw [hv])
  refine ⟨_, v.takeSample f, (exec_sample_head hhead).trans (by rw [hv]), rfl,
    fun ho => (takeSample_overtaken ho).trans hv, fun ho hc => ?_⟩
  rw [takeSample_accepted ho (by rw [hv]; exact hc)]
  obtain ⟨hframe, b, hrec⟩ := acceptSample_kept (f := f) hvs
  have haccept := acceptSample_sound (f := f) hvs
  have htake : (v.recordSample (v.taken v.tables.axes[f.axis].held.mirrored f)).axisRec = upd s.axisRec f.axis
      (fun r => { r with latest := some (f.convert s.tables.axes[f.axis].held.mirrored s.timer.timebase), arrived := true }) := by
    rw [hv]
    rfl
  rw [htake, upd_upd] at hrec
  have hown : (v.acceptSample f).axisRec[f.axis] = { s.axisRec[f.axis] with
      latest := some (f.convert s.tables.axes[f.axis].held.mirrored s.timer.timebase), arrived := true, intrusion := b } := by
    rw [hrec]
    exact upd_get_same _ _ _
  refine ⟨by rw [hown]; rfl, by rw [hown], by rw [hown], by rw [hown], fun c hc => ?_, ?_, fun hp => ?_, fun hp => ?_⟩
  · rw [hrec]
    exact upd_get_ne _ (Ne.symm hc) _
  · rw [hframe]
    subst hv
    rfl
  · refine ⟨_, _, _, by rw [hown], rfl, rfl, ?_⟩
    subst hv
    exact haccept.trans (if_neg (Bool.eq_false_iff.mp hp))
  · subst hv
    exact haccept.trans (if_pos hp)

end Sys2Proof.Machine
end

section
/-! PROOF. Setpoints: HOLD and BRAKE, the checks of a POSITION in their order, and the common target. -/

namespace Sys2Proof.Machine

/-! ## HOLD, BRAKE and refusals -/

theorem takeSetpoint_bad {f : SetpointFrame} {rest : List SetpointFrame} {s : State} (mode : Mode)
    (work : AxisIx → SetpointPayload → State → State) (hhead : s.paths.setpoint = f :: rest) (hf : f.parse = none) :
    s.takeSetpoint mode work = State.countBad .cl { s with paths := { s.paths with setpoint := rest } } := by
  unfold State.takeSetpoint
  rw [hhead]
  dsimp only
  rw [hf]

theorem takeSetpoint_taken {f : SetpointFrame} {rest : List SetpointFrame} {a : AxisIx} {p : SetpointPayload} {s : State}
    {mode : Mode} (work : AxisIx → SetpointPayload → State → State) (hhead : s.paths.setpoint = f :: rest)
    (hf : f.parse = some (a, p)) (hm : p.mode = mode) :
    s.takeSetpoint mode work = (work a p { s with paths := { s.paths with setpoint := rest } }).settle := by
  unfold State.takeSetpoint
  rw [hhead]
  dsimp only
  rw [hf]
  exact if_pos hm

theorem refuseSetpoint_again {s : State} {a : AxisIx} {reason : RefusalReason} {p : SetpointPayload}
    {follow : Option AxisIx} (h : s.axisRec[a].refusalReported = true) : s.refuseSetpoint a reason p follow = s :=
  if_pos h

theorem refuseSetpoint_first {s : State} {a : AxisIx} {reason : RefusalReason} {p : SetpointPayload}
    {follow : Option AxisIx} (h : s.axisRec[a].refusalReported = false) : s.refuseSetpoint a reason p follow = { s with
      cl := s.cl.post s.postContext (.setpointRefused a reason p.mode p.target follow)
      axisRec := upd s.axisRec a (fun r => { r with refusalReported := true }) } :=
  if_neg (Bool.eq_false_iff.mp h)

theorem enqueue_mapped {s : State} {e : SetpointEntry} {sg : SegIx}
    (h : segOfByte s.tables.axes[e.axis].held.segment = some sg) : s.enqueue e = { s with
      egress := { s.egress with setpoints := upd s.egress.setpoints sg (placeSetpoint e) } } := by
  unfold State.enqueue
  rw [h]
  rfl

theorem enqueue_unmapped {s : State} {e : SetpointEntry} (h : segOfByte s.tables.axes[e.axis].held.segment = none) :
    s.enqueue e = s := by
  unfold State.enqueue
  rw [h]

theorem unfit_iff (r : Stored AxisFields) :
    (r.poisoned || !r.held.valid) = true ↔ r.poisoned = true ∨ r.held.valid = false := by
  simp only [Bool.or_eq_true, Bool.not_eq_true']

theorem admitHold_sound {a : AxisIx} {p : SetpointPayload} {s : State} (hs : s.Sound) : s.admitHold a p =
    if s.tables.axes[a].poisoned = true ∨ s.tables.axes[a].held.valid = false then s.refuseSetpoint a .invalidAxis p none
    else match s.axisRec[a].latest with
      | none => s.refuseSetpoint a .noSample p none
      | some l => s.queueRest a p l.position := by
  unfold State.admitHold
  rw [touch_sound _ _ _ hs]
  exact if_congr (unfit_iff _) rfl rfl

theorem admitBrake_sound {a : AxisIx} {p : SetpointPayload} {s : State} (hs : s.Sound) : s.admitBrake a p =
    if s.tables.axes[a].poisoned = true ∨ s.tables.axes[a].held.valid = false then s.refuseSetpoint a .invalidAxis p none
    else s.queueRest a p ((s.axisRec[a].latest.map LatestSample.position).getD p.target) := by
  unfold State.admitBrake
  rw [touch_sound _ _ _ hs]
  refine if_congr (unfit_iff _) rfl ?_
  cases s.axisRec[a].latest <;> rfl

/-- The work of HOLD and of BRAKE (R35), as one. -/
def State.admitRest (a : AxisIx) (p : SetpointPayload) (s : State) : State :=
  if p.mode = .hold then s.admitHold a p else s.admitBrake a p

theorem admitRest_unfit {a : AxisIx} {p : SetpointPayload} {s : State} (hs : s.Sound)
    (h : s.tables.axes[a].poisoned = true ∨ s.tables.axes[a].held.valid = false) :
    s.admitRest a p = s.refuseSetpoint a .invalidAxis p none := by
  unfold State.admitRest
  rw [admitHold_sound hs, admitBrake_sound hs, if_pos h, if_pos h, ite_self]

theorem admitRest_noSample {a : AxisIx} {p : SetpointPayload} {s : State} (hs : s.Sound)
    (h : ¬ (s.tables.axes[a].poisoned = true ∨ s.tables.axes[a].held.valid = false)) (hm : p.mode = .hold)
    (hl : s.axisRec[a].latest = none) : s.admitRest a p = s.refuseSetpoint a .noSample p none := by
  unfold State.admitRest
  rw [if_pos hm, admitHold_sound hs, if_neg h, hl]

theorem admitRest_queued {a : AxisIx} {p : SetpointPayload} {s : State} (hs : s.Sound)
    (h : ¬ (s.tables.axes[a].poisoned = true ∨ s.tables.axes[a].held.valid = false))
    (hl : p.mode = .brake ∨ s.axisRec[a].latest.isSome = true) : s.admitRest a p =
      s.queueRest a p ((s.axisRec[a].latest.map LatestSample.position).getD p.target) := by
  unfold State.admitRest
  split
  · next hm =>
    rw [admitHold_sound hs, if_neg h]
    obtain ⟨l, hl'⟩ := Option.isSome_iff_exists.mp (hl.resolve_left fun hb => by
      rw [hm] at hb
      cases hb)
    rw [hl']
    rfl
  · rw [admitBrake_sound hs, if_neg h]

theorem exec_rest {f : SetpointFrame} {rest : List SetpointFrame} {a : AxisIx} {p : SetpointPayload} {s : State}
    (hhead : s.paths.setpoint = f :: rest) (hf : f.parse = some (a, p)) (hp : p.mode ≠ .position) :
    exec (if p.mode = .hold then .setpointHold else .setpointBrake) s =
      .next (State.admitRest a p { s with paths := { s.paths with setpoint := rest } }).settle := by
  unfold State.admitRest
  split
  · next hm => exact congrArg Host.Outcome.next (takeSetpoint_taken _ hhead hf hm)
  · next hm =>
    have hbrake : p.mode = .brake := by
      cases h : p.mode with
      | position => exact absurd h hp
      | hold => exact absurd h hm
      | brake => rfl
    exact congrArg Host.Outcome.next (takeSetpoint_taken _ hhead hf hbrake)

/-- Settles O44. -/
theorem holdAndBrakeAreQueued : Obligations.HoldAndBrakeAreQueued := by
  refine ⟨fun s f rest c hhead hf hc => ?_, fun s f rest a p hhead hf hs hp => ?_,
    fun s a reason p follow => ⟨refuseSetpoint_again, refuseSetpoint_first⟩,
    fun s e => ⟨fun sg => enqueue_mapped, enqueue_unmapped⟩⟩
  · rcases hc with hc | hc | hc <;> subst hc <;>
      exact congrArg Host.Outcome.next (takeSetpoint_bad _ _ hhead hf)
  · have hs' : ({ s with paths := { s.paths with setpoint := rest } } : State).Sound := Sound.of_tables hs rfl
    refine ⟨_, _, exec_rest hhead hf hp, rfl, admitRest_unfit hs', fun hpoison hvalid => ?_⟩
    have hfit : ¬ (s.tables.axes[a].poisoned = true ∨ s.tables.axes[a].held.valid = false) := by
      rw [hpoison, hvalid]
      decide
    exact ⟨admitRest_noSample hs' hfit, admitRest_queued hs' hfit⟩

/-! ## Checks that read clean records -/

/-- The check leaves the state and fails for the reason exactly when the condition holds. -/
def Check.Tests (c : Check) (s : State) (r : RefusalReason) (fails : Prop) : Prop :=
  (fails → c s = (s, some r)) ∧ (¬ fails → c s = (s, none))

theorem Check.tests_ite {c : Check} {s : State} {r : RefusalReason} {b : Bool} {fails : Prop} (hb : b = true ↔ fails)
    (h : c s = (s, if b then some r else none)) : c.Tests s r fails :=
  ⟨fun hf => by rw [h, if_pos (hb.mpr hf)], fun hf => by rw [h, if_neg (mt hb.mp hf)]⟩

/-- What a setpoint comes to by the checks that are left, then `next` when all pass. -/
def checksThen (fail : RefusalReason → State → State) (next : State → State) (cs : List Check) (s : State) : State :=
  match runChecks cs s with
  | (s1, some r) => fail r s1
  | (s1, none) => next s1

section
variable {fail : RefusalReason → State → State} {next : State → State} {c c' : Check} {cs : List Check} {s : State}
  {r : RefusalReason} {p q : Prop}

theorem checksThen_fail (hc : c.Tests s r p) (h : p) : checksThen fail next (c :: cs) s = fail r s := by
  unfold checksThen runChecks
  rw [hc.1 h]

theorem checksThen_pass (hc : c.Tests s r p) (h : ¬ p) :
    checksThen fail next (c :: cs) s = checksThen fail next cs s := by
  unfold checksThen
  rw [runChecks, hc.2 h]

theorem checksThen_fail_either (hc : c.Tests s r p) (hc' : c'.Tests s r q) (h : p ∨ q) :
    checksThen fail next (c :: c' :: cs) s = fail r s := by
  by_cases hp : p
  · exact checksThen_fail hc hp
  · rw [checksThen_pass hc hp, checksThen_fail hc' (h.resolve_left hp)]

theorem checksThen_pass_both (hc : c.Tests s r p) (hc' : c'.Tests s r q) (h : ¬ (p ∨ q)) :
    checksThen fail next (c :: c' :: cs) s = checksThen fail next cs s := by
  rw [checksThen_pass hc fun hp => h (.inl hp), checksThen_pass hc' fun hq => h (.inr hq)]

end

theorem checkValid_tests {a : AxisIx} {s : State} (hs : s.Sound) : Check.Tests (checkValid a) s .invalidAxis
    (s.tables.axes[a].poisoned = false ∧ s.tables.axes[a].held.valid = false) := by
  refine Check.tests_ite (b := !s.tables.axes[a].poisoned && !s.tables.axes[a].held.valid) (by simp) ?_
  unfold checkValid
  rw [touch_sound _ _ _ hs]

theorem checkGroup_tests (a : AxisIx) (s : State) : Check.Tests (checkGroup a) s .noGroup (s.groupOf a = none) :=
  Check.tests_ite Option.isNone_iff_eq_none rfl

theorem checkLive_tests (taken : State) (a : AxisIx) (s : State) : Check.Tests (checkLive taken a) s .notLive
    (∃ g, taken.groupOf a = some g ∧ taken.permitState g ≠ .live) :=
  Check.tests_ite (b := (taken.groupOf a).any fun g => taken.permitState g != .live)
    (by simp [Option.any_eq_true]) rfl

theorem checkPoisoned_tests {a : AxisIx} {s : State} (hs : s.Sound) : Check.Tests (checkPoisoned a) s .poisoned
    ((s.touching a).any s.tables.isPoisoned = true) := by
  refine Check.tests_ite Iff.rfl ?_
  unfold checkPoisoned
  dsimp only
  rw [touchAll_sound _ _ _ hs]

theorem checkFollower_tests (a : AxisIx) (s : State) : Check.Tests (checkFollower a) s .followerAddressed
    (∃ k, s.pairOf a = some k ∧ s.tables.pairs[k].held.valid = true ∧ s.tables.pairs[k].held.dualCast = true ∧
      s.tables.pairs[k].held.follow = natByte a) := by
  refine Check.tests_ite (b := (s.pairOf a).any fun p => s.tables.pairs[p].held.valid &&
    s.tables.pairs[p].held.dualCast && s.tables.pairs[p].held.follow == natByte a) ?_ rfl
  simp only [Option.any_eq_true, Bool.and_eq_true, beq_iff_eq, and_assoc]

theorem checkSample_tests (a : AxisIx) (s : State) : Check.Tests (checkSample a) s .noSample
    (s.axisRec[a].latest = none ∨ s.axisRec[a].missCount ≠ 0) :=
  Check.tests_ite (b := s.axisRec[a].latest.isNone || s.axisRec[a].missCount != 0)
    (by simp only [Bool.or_eq_true, Option.isNone_iff_eq_none, bne_iff_ne]) rfl

theorem inInterval_iff (x low high : Int) : inInterval x low high = true ↔ low ≤ x ∧ x ≤ high := by
  simp only [inInterval, Bool.and_eq_true, decide_eq_true_eq]

theorem checkWindow_tests (x : Int) (m : Mover) (s : State) : Check.Tests (checkWindow x m) s .window
    (x < m.fields.softLow.toInt ∨ m.fields.softHigh.toInt < x) := by
  refine Check.tests_ite (b := m.outsideWindow x) ?_ rfl
  unfold Mover.outsideWindow
  rw [Bool.not_eq_true', ← Bool.not_eq_true, inInterval_iff]
  omega

theorem checkZone_tests {x : Int} {m : Mover} {s : State} (hs : s.Sound) : Check.Tests (checkZone x m) s .zone
    (s.meetsUnowned x m = true) := by
  refine Check.tests_ite Iff.rfl ?_
  unfold checkZone State.readExtents
  rw [touchAll_sound _ _ _ hs]

/-! ## The outcome of a POSITION -/

theorem refusePosition_single (a : AxisIx) (p : SetpointPayload) (r : RefusalReason) (s : State) :
    s.refusePosition a [a] p r = (if r.discards then s else s.holdInPlace a).refuseSetpoint a r p none := by
  unfold State.refusePosition
  simp

theorem refusePosition_unit (a b : AxisIx) (p : SetpointPayload) (r : RefusalReason) (s : State) :
    s.refusePosition a [a, b] p r = (if r.discards then s else (s.holdInPlace a).holdInPlace b).refuseSetpoint a r p
      (if b = a then none else some b) := by
  have hfind : [a, b].find? (· != a) = if b = a then none else some b := by
    by_cases h : b = a
    · simp [h]
    · simp [h]
  unfold State.refusePosition
  rw [hfind]
  rfl

theorem readPair_sound {a : AxisIx} {s : State} (hs : s.Sound) : s.readPair a = s := by
  unfold State.readPair
  split
  · exact touch_sound _ _ _ hs
  · rfl

/-- The outcome of checks 1 to 6 that are left, then of checks 7 to 9. -/
abbrev State.judgeFirst (a : AxisIx) (axes : List AxisIx) (p : SetpointPayload) (cs : List Check) (s : State) : State :=
  checksThen (fun r s => s.refusePosition a axes p r) (fun s => s.judgeTarget a axes p) cs s

/-- The outcome of checks 8 and 9 that are left, then of an accepted setpoint. -/
abbrev State.judgeLast (a : AxisIx) (axes : List AxisIx) (p : SetpointPayload) (x : Int) (ms : List Mover)
    (cs : List Check) (s : State) : State :=
  checksThen (fun r s => s.refusePosition a axes p r) (fun s => ms.foldl (State.acceptPosition p x) s) cs s

theorem admitPosition_single {a : AxisIx} {p : SetpointPayload} {s : State} (hs : s.Sound) (hu : s.unitFollow a = none) :
    s.admitPosition a p = s.judgeFirst a [a] p (firstChecks s a [a]) := by
  unfold State.admitPosition
  rw [readPair_sound hs]
  dsimp only
  rw [hu]
  rfl

theorem admitPosition_unit {a b : AxisIx} {p : SetpointPayload} {s : State} (hs : s.Sound)
    (hu : s.unitFollow a = some b) : s.admitPosition a p = s.judgeFirst a [a, b] p (firstChecks s a [a, b]) := by
  unfold State.admitPosition
  rw [readPair_sound hs]
  dsimp only
  rw [hu]
  rfl

theorem nearest_eq {low high : Int} (h : low ≤ high) (x : Int) : nearest low high x = max low (min x high) := by
  unfold nearest
  split
  · omega
  · split <;> omega

theorem mover_some {s : State} {a : AxisIx} {l : LatestSample} (h : s.axisRec[a].latest = some l) :
    s.mover a = some ⟨a, l.position, s.tables.axes[a].held⟩ := by
  unfold State.mover
  rw [h]
  rfl

theorem meetsUnowned_countClamps (ms : List Mover) (x y : Int) (w : Word32) (m : Mover) (s : State) :
    (s.countClamps ms x w).meetsUnowned y m = s.meetsUnowned y m ∧ (s.countClamps ms x w).tables = s.tables := by
  unfold State.countClamps
  split
  · exact ⟨rfl, rfl⟩
  · refine keeps_foldl (P := fun t => t.meetsUnowned y m = s.meetsUnowned y m ∧ t.tables = s.tables) _ ?_ ms s ⟨rfl, rfl⟩
    exact fun t k h => ⟨(show (t.modAxis _ _).meetsUnowned y m = t.meetsUnowned y m from rfl).trans h.1, h.2⟩

theorem judgeTarget_eq {a : AxisIx} {axes : List AxisIx} {p : SetpointPayload} {s : State} {ms : List Mover}
    (hms : axes.filterMap s.mover = ms) (h : stepLow ms ≤ stepHigh ms) : s.judgeTarget a axes p =
      (s.countClamps ms (max (stepLow ms) (min p.target.toInt (stepHigh ms))) p.target).judgeLast a axes p
        (max (stepLow ms) (min p.target.toInt (stepHigh ms))) ms
        (lastChecks (max (stepLow ms) (min p.target.toInt (stepHigh ms))) ms) := by
  unfold State.judgeTarget
  rw [hms]
  dsimp only
  rw [if_neg (Int.not_lt.mpr h), nearest_eq h]
  rfl

theorem judgeTarget_apart {a : AxisIx} {axes : List AxisIx} {p : SetpointPayload} {s : State} {ms : List Mover}
    (hms : axes.filterMap s.mover = ms) (h : stepHigh ms < stepLow ms) :
    s.judgeTarget a axes p = s.refusePosition a axes p .skewedReference := by
  unfold State.judgeTarget
  rw [hms]
  exact if_pos h

/-! ## A single axis -/

theorem countClamps_one (m : Mover) (x : Int) (w : Word32) (s : State) : s.countClamps [m] x w = if x = w.toInt then s
    else s.modAxis m.axis fun r => { r with clampCount := satInc r.clampCount } := rfl

theorem judgeTarget_single {a : AxisIx} {p : SetpointPayload} {s : State} {l : LatestSample} (hs : s.Sound)
    (hl : s.axisRec[a].latest = some l) : ∃ (x : Int) (s2 : State),
      x = max (l.position.toInt - s.tables.axes[a].held.maxStep.toNat)
        (min p.target.toInt (l.position.toInt + s.tables.axes[a].held.maxStep.toNat)) ∧
      s2 = (if x = p.target.toInt then s else s.modAxis a fun r => { r with clampCount := satInc r.clampCount }) ∧
      if x < s.tables.axes[a].held.softLow.toInt ∨ s.tables.axes[a].held.softHigh.toInt < x then
        s.judgeTarget a [a] p = (s2.holdInPlace a).refuseSetpoint a .window p none
      else if s.meetsUnowned x ⟨a, l.position, s.tables.axes[a].held⟩ = true then
        s.judgeTarget a [a] p = (s2.holdInPlace a).refuseSetpoint a .zone p none
      else s.judgeTarget a [a] p = ((s2.enqueue ⟨a, .position, BitVec.ofInt 32 x,
        if s.tables.axes[a].held.velocityLimit.toNat < p.cap.toNat then
          s.tables.axes[a].held.velocityLimit else p.cap, l.position⟩).modAxis a fun r =>
            { r with refusalReported := false }) := by
  have hms : [a].filterMap s.mover = [⟨a, l.position, s.tables.axes[a].held⟩] := by
    rw [List.filterMap_cons_some (mover_some hl)]
    rfl
  obtain ⟨x, hx⟩ : ∃ x, x = max (stepLow [⟨a, l.position, s.tables.axes[a].held⟩])
    (min p.target.toInt (stepHigh [⟨a, l.position, s.tables.axes[a].held⟩])) := ⟨_, rfl⟩
  have hjudge := judgeTarget_eq (a := a) (p := p) hms (by unfold stepLow stepHigh Mover.low Mover.high; omega)
  rw [← hx] at hjudge
  refine ⟨x, s.countClamps [⟨a, l.position, s.tables.axes[a].held⟩] x p.target, hx, countClamps_one _ _ _ _, ?_⟩
  obtain ⟨hmeets, htables⟩ := meetsUnowned_countClamps [⟨a, l.position, s.tables.axes[a].held⟩] x x p.target
    ⟨a, l.position, s.tables.axes[a].held⟩ s
  obtain ⟨s2, hs2⟩ : ∃ s2, s2 = s.countClamps [⟨a, l.position, s.tables.axes[a].held⟩] x p.target := ⟨_, rfl⟩
  rw [← hs2] at hmeets htables hjudge ⊢
  have hwindow : Check.Tests (checkWindow x ⟨a, l.position, s.tables.axes[a].held⟩) s2 .window
    (x < s.tables.axes[a].held.softLow.toInt ∨ s.tables.axes[a].held.softHigh.toInt < x) := checkWindow_tests _ _ _
  have hzone := checkZone_tests (x := x) (m := ⟨a, l.position, s.tables.axes[a].held⟩) (Sound.of_tables hs htables)
  rw [hmeets] at hzone
  change s.judgeTarget a [a] p = checksThen _ _ [checkWindow x _, checkZone x _] s2 at hjudge
  rw [hjudge]
  split
  · next h => rw [checksThen_fail hwindow h, refusePosition_single]; rfl
  · next h =>
    rw [checksThen_pass hwindow h]
    split
    · next h => rw [checksThen_fail hzone h, refusePosition_single]; rfl
    · next h => rw [checksThen_pass hzone h]; rfl

end Sys2Proof.Machine
end

section
/-! PROOF. A POSITION setpoint, judged in order, for a single axis and for a dual-cast unit; and the common target. -/

namespace Sys2Proof.Machine

/-! ## A single axis -/

/-- Checks 1 to 9 for a single axis (R36 to R45). -/
theorem admitPosition_single_judged {a : AxisIx} {p : SetpointPayload} {s : State} (hs : s.Sound)
    (hu : s.unitFollow a = none) :
    if s.tables.axes[a].poisoned = false ∧ s.tables.axes[a].held.valid = false then
      s.admitPosition a p = s.refuseSetpoint a .invalidAxis p none
    else match s.groupOf a with
      | none => s.admitPosition a p = s.refuseSetpoint a .noGroup p none
      | some g =>
        if s.permitState g ≠ .live then s.admitPosition a p = s.refuseSetpoint a .notLive p none
        else if (s.touching a).any s.tables.isPoisoned = true then
          s.admitPosition a p = (s.holdInPlace a).refuseSetpoint a .poisoned p none
        else if ∃ k, s.pairOf a = some k ∧ s.tables.pairs[k].held.valid = true ∧
            s.tables.pairs[k].held.dualCast = true ∧ s.tables.pairs[k].held.follow = natByte a then
          s.admitPosition a p = (s.holdInPlace a).refuseSetpoint a .followerAddressed p none
        else match s.axisRec[a].latest with
          | none => s.admitPosition a p = s.refuseSetpoint a .noSample p none
          | some l =>
            if s.axisRec[a].missCount ≠ 0 then
              s.admitPosition a p = (s.holdInPlace a).refuseSetpoint a .noSample p none
            else ∃ (x : Int) (s2 : State),
              x = max (l.position.toInt - s.tables.axes[a].held.maxStep.toNat)
                (min p.target.toInt (l.position.toInt + s.tables.axes[a].held.maxStep.toNat)) ∧
              s2 = (if x = p.target.toInt then s
                else s.modAxis a fun r => { r with clampCount := satInc r.clampCount }) ∧
              if x < s.tables.axes[a].held.softLow.toInt ∨ s.tables.axes[a].held.softHigh.toInt < x then
                s.admitPosition a p = (s2.holdInPlace a).refuseSetpoint a .window p none
              else if s.meetsUnowned x ⟨a, l.position, s.tables.axes[a].held⟩ = true then
                s.admitPosition a p = (s2.holdInPlace a).refuseSetpoint a .zone p none
              else s.admitPosition a p = ((s2.enqueue ⟨a, .position, BitVec.ofInt 32 x,
                if s.tables.axes[a].held.velocityLimit.toNat < p.cap.toNat then
                  s.tables.axes[a].held.velocityLimit else p.cap, l.position⟩).modAxis a fun r =>
                    { r with refusalReported := false }) := by
  have hfirst : s.admitPosition a p = checksThen _ _ [checkValid a, checkGroup a, checkLive s a, checkPoisoned a,
    checkFollower a, checkSample a] s := admitPosition_single hs hu
  rw [hfirst]
  split
  · next h => rw [checksThen_fail (checkValid_tests hs) h, refusePosition_single]; rfl
  · next h =>
    rw [checksThen_pass (checkValid_tests hs) h]
    split
    · next hg => rw [checksThen_fail (checkGroup_tests a s) hg, refusePosition_single]; rfl
    · next g hg =>
      rw [checksThen_pass (checkGroup_tests a s) (by rw [hg]; simp)]
      split
      · next hl => rw [checksThen_fail (checkLive_tests s a s) ⟨g, hg, hl⟩, refusePosition_single]; rfl
      · next hl =>
        rw [checksThen_pass (checkLive_tests s a s) (fun ⟨k, hk, hkl⟩ => hl (by rw [hg] at hk; cases hk; exact hkl))]
        split
        · next hp => rw [checksThen_fail (checkPoisoned_tests hs) hp, refusePosition_single]; rfl
        · next hp =>
          rw [checksThen_pass (checkPoisoned_tests hs) hp]
          split
          · next hf => rw [checksThen_fail (checkFollower_tests a s) hf, refusePosition_single]; rfl
          · next hf =>
            rw [checksThen_pass (checkFollower_tests a s) hf]
            split
            · next hn =>
              have hstay : s.holdInPlace a = s := by
                unfold State.holdInPlace
                rw [hn]
              rw [checksThen_fail (checkSample_tests a s) (.inl hn), refusePosition_single, hstay, ite_self]
            · next l hn =>
              split
              · next hm => rw [checksThen_fail (checkSample_tests a s) (.inr hm), refusePosition_single]; rfl
              · next hm =>
                rw [checksThen_pass (checkSample_tests a s) (by rw [hn]; simpa using hm)]
                exact judgeTarget_single hs hn

/-! ## A dual-cast unit -/

theorem countClamps_two (m n : Mover) (x : Int) (w : Word32) (s : State) : s.countClamps [m, n] x w =
    if x = w.toInt then s else (s.modAxis m.axis fun r => { r with clampCount := satInc r.clampCount }).modAxis n.axis
      fun r => { r with clampCount := satInc r.clampCount } := rfl

/-- A unit's follow is the pair's follow, so it is the axis itself exactly when the pair names it so (R39, R46). -/
theorem unitFollow_follower {a b : AxisIx} {s : State} (h : s.unitFollow a = some b) :
    (∃ k, s.pairOf a = some k ∧ s.tables.pairs[k].held.valid = true ∧ s.tables.pairs[k].held.dualCast = true ∧
      s.tables.pairs[k].held.follow = natByte a) ↔ b = a := by
  obtain ⟨k, hk, hunit⟩ := Option.bind_eq_some_iff.mp h
  dsimp only at hunit
  obtain ⟨hentry, hfollow⟩ := Option.ite_none_right_eq_some.mp hunit
  simp only [Bool.and_eq_true] at hentry
  obtain ⟨⟨⟨hvalid, -⟩, hdual⟩, -⟩ := hentry
  have hbyte := natByte_of_ixOfByte hfollow
  constructor
  · rintro ⟨k', hk', -, -, hfa⟩
    rw [hk] at hk'
    cases hk'
    rw [hfa] at hfollow
    exact Option.some.inj (hfollow.symm.trans (axisOfByte_natByte a))
  · rintro rfl
    exact ⟨k, hk, hvalid, hdual, hbyte⟩

/-- Checks 7 to 9 of a lead and its follow, whose latest samples these are (R46 to R48). -/
def State.UnitTargeted (s : State) (a b : AxisIx) (p : SetpointPayload) (follow : Option AxisIx) (l m : LatestSample)
    (out : State) : Prop :=
  ∃ low high : Int,
    low = max (l.position.toInt - s.tables.axes[a].held.maxStep.toNat)
      (m.position.toInt - s.tables.axes[b].held.maxStep.toNat) ∧
    high = min (l.position.toInt + s.tables.axes[a].held.maxStep.toNat)
      (m.position.toInt + s.tables.axes[b].held.maxStep.toNat) ∧
    if high < low then
      out = ((s.holdInPlace a).holdInPlace b).refuseSetpoint a .skewedReference p
        follow
    else ∃ (x : Int) (s2 : State), x = max low (min p.target.toInt high) ∧
      s2 = (if x = p.target.toInt then s
        else (s.modAxis a fun r => { r with clampCount := satInc r.clampCount }).modAxis b
          fun r => { r with clampCount := satInc r.clampCount }) ∧
      if x < s.tables.axes[a].held.softLow.toInt ∨ s.tables.axes[a].held.softHigh.toInt < x then
        out = ((s2.holdInPlace a).holdInPlace b).refuseSetpoint a .window p
          follow
      else if s.meetsUnowned x ⟨a, l.position, s.tables.axes[a].held⟩ = true then
        out = ((s2.holdInPlace a).holdInPlace b).refuseSetpoint a .zone p
          follow
      else if x < s.tables.axes[b].held.softLow.toInt ∨ s.tables.axes[b].held.softHigh.toInt < x then
        out = ((s2.holdInPlace a).holdInPlace b).refuseSetpoint a .window p
          follow
      else if s.meetsUnowned x ⟨b, m.position, s.tables.axes[b].held⟩ = true then
        out = ((s2.holdInPlace a).holdInPlace b).refuseSetpoint a .zone p
          follow
      else out = ((((s2.enqueue ⟨a, .position, BitVec.ofInt 32 x,
        if s.tables.axes[a].held.velocityLimit.toNat < p.cap.toNat then
          s.tables.axes[a].held.velocityLimit else p.cap, l.position⟩).modAxis a fun r =>
            { r with refusalReported := false }).enqueue ⟨b, .position, BitVec.ofInt 32 x,
        if s.tables.axes[b].held.velocityLimit.toNat < p.cap.toNat then
          s.tables.axes[b].held.velocityLimit else p.cap, m.position⟩).modAxis b fun r =>
            { r with refusalReported := false })
/-- Checks 6 to 9 of a lead and its follow (R39, R46 to R48). -/
def State.UnitSampled (s : State) (a b : AxisIx) (p : SetpointPayload) (follow : Option AxisIx) (out : State) : Prop :=
  match s.axisRec[a].latest, s.axisRec[b].latest with
  | some l, some m =>
    if s.axisRec[a].missCount ≠ 0 ∨ s.axisRec[b].missCount ≠ 0 then
      out = ((s.holdInPlace a).holdInPlace b).refuseSetpoint a .noSample p follow
    else s.UnitTargeted a b p follow l m out
  | _, _ => out = ((s.holdInPlace a).holdInPlace b).refuseSetpoint a .noSample p follow

theorem judgeTarget_unit {a b : AxisIx} {p : SetpointPayload} {s : State} {l m : LatestSample} (hs : s.Sound)
    (hl : s.axisRec[a].latest = some l) (hm : s.axisRec[b].latest = some m) :
    s.UnitTargeted a b p (if b = a then none else some b) l m (s.judgeTarget a [a, b] p) := by
  have hms : [a, b].filterMap s.mover = [⟨a, l.position, s.tables.axes[a].held⟩, ⟨b, m.position, s.tables.axes[b].held⟩] := by
    rw [List.filterMap_cons_some (mover_some hl), List.filterMap_cons_some (mover_some hm)]
    rfl
  obtain ⟨low, hlow⟩ : ∃ low, low = stepLow
    [⟨a, l.position, s.tables.axes[a].held⟩, ⟨b, m.position, s.tables.axes[b].held⟩] := ⟨_, rfl⟩
  obtain ⟨high, hhigh⟩ : ∃ high, high = stepHigh
    [⟨a, l.position, s.tables.axes[a].held⟩, ⟨b, m.position, s.tables.axes[b].held⟩] := ⟨_, rfl⟩
  refine ⟨low, high, hlow, hhigh, ?_⟩
  split
  · next h =>
    rw [hlow, hhigh] at h
    rw [judgeTarget_apart hms h, refusePosition_unit]
    rfl
  · next h =>
    obtain ⟨x, hx⟩ : ∃ x, x = max low (min p.target.toInt high) := ⟨_, rfl⟩
    have hjudge := judgeTarget_eq (a := a) (p := p) hms (by rw [← hlow, ← hhigh]; exact Int.not_lt.mp h)
    rw [← hlow, ← hhigh, ← hx] at hjudge
    refine ⟨x, s.countClamps [⟨a, l.position, s.tables.axes[a].held⟩, ⟨b, m.position, s.tables.axes[b].held⟩] x p.target,
      hx, countClamps_two _ _ _ _ _, ?_⟩
    obtain ⟨hmeets, htables⟩ := meetsUnowned_countClamps [⟨a, l.position, s.tables.axes[a].held⟩,
      ⟨b, m.position, s.tables.axes[b].held⟩] x x p.target ⟨a, l.position, s.tables.axes[a].held⟩ s
    obtain ⟨hmeets', -⟩ := meetsUnowned_countClamps [⟨a, l.position, s.tables.axes[a].held⟩,
      ⟨b, m.position, s.tables.axes[b].held⟩] x x p.target ⟨b, m.position, s.tables.axes[b].held⟩ s
    obtain ⟨s2, hs2⟩ : ∃ s2, s2 = s.countClamps [⟨a, l.position, s.tables.axes[a].held⟩,
      ⟨b, m.position, s.tables.axes[b].held⟩] x p.target := ⟨_, rfl⟩
    rw [← hs2] at hmeets hmeets' htables hjudge ⊢
    have hsound : s2.Sound := Sound.of_tables hs htables
    have hwa : Check.Tests (checkWindow x ⟨a, l.position, s.tables.axes[a].held⟩) s2 .window
      (x < s.tables.axes[a].held.softLow.toInt ∨ s.tables.axes[a].held.softHigh.toInt < x) := checkWindow_tests _ _ _
    have hwb : Check.Tests (checkWindow x ⟨b, m.position, s.tables.axes[b].held⟩) s2 .window
      (x < s.tables.axes[b].held.softLow.toInt ∨ s.tables.axes[b].held.softHigh.toInt < x) := checkWindow_tests _ _ _
    have hza := checkZone_tests (x := x) (m := ⟨a, l.position, s.tables.axes[a].held⟩) hsound
    have hzb := checkZone_tests (x := x) (m := ⟨b, m.position, s.tables.axes[b].held⟩) hsound
    rw [hmeets] at hza
    rw [hmeets'] at hzb
    change s.judgeTarget a [a, b] p =
      checksThen _ _ [checkWindow x _, checkZone x _, checkWindow x _, checkZone x _] s2 at hjudge
    rw [hjudge]
    split
    · next h => rw [checksThen_fail hwa h, refusePosition_unit]; rfl
    · next h =>
      rw [checksThen_pass hwa h]
      split
      · next h => rw [checksThen_fail hza h, refusePosition_unit]; rfl
      · next h =>
        rw [checksThen_pass hza h]
        split
        · next h => rw [checksThen_fail hwb h, refusePosition_unit]; rfl
        · next h =>
          rw [checksThen_pass hwb h]
          split
          · next h => rw [checksThen_fail hzb h, refusePosition_unit]; rfl
          · next h => rw [checksThen_pass hzb h]; rfl

/-- Checks 6 to 9, once checks 1 to 5 have passed. -/
theorem judgeFirst_sampled {a b : AxisIx} {p : SetpointPayload} {s : State} (hs : s.Sound) :
    s.UnitSampled a b p (if b = a then none else some b)
      (s.judgeFirst a [a, b] p [checkSample a, checkSample b]) := by
  unfold State.UnitSampled State.judgeFirst
  split
  · next l m hla hlb =>
    split
    · next hm =>
      rw [checksThen_fail_either (checkSample_tests a s) (checkSample_tests b s) (hm.imp .inr .inr),
        refusePosition_unit]
      rfl
    · next hm =>
      rw [checksThen_pass_both (checkSample_tests a s) (checkSample_tests b s)
        (by rw [hla, hlb]; simpa using hm)]
      exact judgeTarget_unit hs hla hlb
  · next hno =>
    have hnone : s.axisRec[a].latest = none ∨ s.axisRec[b].latest = none := by
      cases hla : s.axisRec[a].latest with
      | none => exact .inl rfl
      | some l =>
        cases hlb : s.axisRec[b].latest with
        | none => exact .inr rfl
        | some m => exact absurd hlb (hno l m hla)
    rw [checksThen_fail_either (checkSample_tests a s) (checkSample_tests b s) (hnone.imp .inl .inl),
      refusePosition_unit]
    rfl

/-- Checks 1 to 9 for a lead and its follow (R46 to R48). -/
theorem admitPosition_unit_judged {a b : AxisIx} {p : SetpointPayload} {s : State} (hs : s.Sound)
    (hu : s.unitFollow a = some b) : ∃ follow : Option AxisIx, follow = (if b = a then none else some b) ∧
    if (s.tables.axes[a].poisoned = false ∧ s.tables.axes[a].held.valid = false) ∨
        (s.tables.axes[b].poisoned = false ∧ s.tables.axes[b].held.valid = false) then
      s.admitPosition a p = s.refuseSetpoint a .invalidAxis p follow
    else match s.groupOf a, s.groupOf b with
      | some g, some h =>
        if s.permitState g ≠ .live ∨ s.permitState h ≠ .live then
          s.admitPosition a p = s.refuseSetpoint a .notLive p follow
        else if (s.touching a ++ s.touching b).any s.tables.isPoisoned = true then
          s.admitPosition a p = ((s.holdInPlace a).holdInPlace b).refuseSetpoint a .poisoned p follow
        else if b = a then
          s.admitPosition a p = ((s.holdInPlace a).holdInPlace b).refuseSetpoint a .followerAddressed p follow
        else s.UnitSampled a b p follow (s.admitPosition a p)
      | _, _ => s.admitPosition a p = s.refuseSetpoint a .noGroup p follow := by
  obtain ⟨follow, hfollow⟩ : ∃ follow, follow = if b = a then none else some b := ⟨_, rfl⟩
  refine ⟨follow, hfollow, ?_⟩
  have hrefuse : ∀ (r : RefusalReason) (u : State), u.refusePosition a [a, b] p r =
      (if r.discards then u else (u.holdInPlace a).holdInPlace b).refuseSetpoint a r p follow := fun r u => by
    rw [refusePosition_unit, hfollow]
  have hfirst : s.admitPosition a p = checksThen _ _ [checkValid a, checkValid b, checkGroup a, checkGroup b,
    checkLive s a, checkLive s b, checkPoisoned a, checkPoisoned b, checkFollower a, checkSample a, checkSample b] s :=
    admitPosition_unit hs hu
  have hany : (s.touching a ++ s.touching b).any s.tables.isPoisoned = true ↔
      (s.touching a).any s.tables.isPoisoned = true ∨ (s.touching b).any s.tables.isPoisoned = true := by
    rw [List.any_append, Bool.or_eq_true]
  rw [hfirst]
  split
  · next h => rw [checksThen_fail_either (checkValid_tests hs) (checkValid_tests hs) h, hrefuse]; rfl
  · next h =>
    rw [checksThen_pass_both (checkValid_tests hs) (checkValid_tests hs) h]
    split
    · next g h hg hh =>
      rw [checksThen_pass_both (checkGroup_tests a s) (checkGroup_tests b s) (by rw [hg, hh]; simp)]
      have hliveA : (∃ k, s.groupOf a = some k ∧ s.permitState k ≠ .live) ↔ s.permitState g ≠ .live := by simp [hg]
      have hliveB : (∃ k, s.groupOf b = some k ∧ s.permitState k ≠ .live) ↔ s.permitState h ≠ .live := by simp [hh]
      split
      · next hl =>
        rw [checksThen_fail_either (checkLive_tests s a s) (checkLive_tests s b s) (by rwa [hliveA, hliveB]),
          hrefuse]
        rfl
      · next hl =>
        rw [checksThen_pass_both (checkLive_tests s a s) (checkLive_tests s b s) (by rwa [hliveA, hliveB])]
        split
        · next hp =>
          rw [checksThen_fail_either (checkPoisoned_tests hs) (checkPoisoned_tests hs) (hany.mp hp), hrefuse]
          rfl
        · next hp =>
          rw [checksThen_pass_both (checkPoisoned_tests hs) (checkPoisoned_tests hs) (mt hany.mpr hp)]
          split
          · next hf =>
            rw [checksThen_fail (checkFollower_tests a s) ((unitFollow_follower hu).mpr hf), hrefuse]
            rfl
          · next hf =>
            rw [checksThen_pass (checkFollower_tests a s) (mt (unitFollow_follower hu).mp hf)]
            rw [hfollow]
            exact judgeFirst_sampled hs
    · next hno =>
      have hnone : s.groupOf a = none ∨ s.groupOf b = none := by
        cases hga : s.groupOf a with
        | none => exact .inl rfl
        | some g =>
          cases hgb : s.groupOf b with
          | none => exact .inr rfl
          | some h => exact absurd hgb (hno g h hga)
      rw [checksThen_fail_either (checkGroup_tests a s) (checkGroup_tests b s) hnone, hrefuse]
      rfl

/-! ## The obligations -/

theorem holdInPlace_none {a : AxisIx} {s : State} (h : s.axisRec[a].latest = none ∨ s.tables.axes[a].poisoned = true) :
    s.holdInPlace a = s := by
  unfold State.holdInPlace
  split
  · next l hl =>
    rw [hl] at h
    exact if_pos (h.resolve_left (by simp))
  · rfl

theorem holdInPlace_some {a : AxisIx} {s : State} {l : LatestSample} (hl : s.axisRec[a].latest = some l)
    (hp : s.tables.axes[a].poisoned = false) :
    s.holdInPlace a = s.enqueue ⟨a, .hold, l.position, 0, l.position⟩ := by
  unfold State.holdInPlace
  rw [hl]
  exact if_neg (Bool.eq_false_iff.mp hp)

/-- Settles O46. -/
theorem positionIsJudgedInOrder : Obligations.PositionIsJudgedInOrder := by
  refine ⟨fun s f rest a p hhead hf hm hs hu => ?_, fun s f rest a b p hhead hf hm hs hu => ?_,
    fun s a => ⟨holdInPlace_none, fun l => holdInPlace_some⟩⟩
  · have hs' : ({ s with paths := { s.paths with setpoint := rest } } : State).Sound := Sound.of_tables hs rfl
    exact ⟨_, _, _, congrArg Host.Outcome.next (takeSetpoint_taken _ hhead hf hm), rfl, rfl,
      admitPosition_single_judged hs' hu⟩
  · have hs' : ({ s with paths := { s.paths with setpoint := rest } } : State).Sound := Sound.of_tables hs rfl
    obtain ⟨follow, hfollow, hjudged⟩ := admitPosition_unit_judged (p := p) hs' hu
    exact ⟨_, _, _, follow, congrArg Host.Outcome.next (takeSetpoint_taken _ hhead hf hm), rfl, rfl, hfollow, hjudged⟩

/-- Settles O47. -/
theorem commonTargetIsNearest : Obligations.CommonTargetIsNearest := by
  intro m n request
  have hlow : stepLow [m, n] = max (m.reference.toInt - m.fields.maxStep.toNat)
    (n.reference.toInt - n.fields.maxStep.toNat) := rfl
  have hhigh : stepHigh [m, n] = min (m.reference.toInt + m.fields.maxStep.toNat)
    (n.reference.toInt + n.fields.maxStep.toNat) := rfl
  refine ⟨fun h => ?_, fun h ⟨y, hy⟩ => ?_⟩
  · rw [nearest_eq h, hlow, hhigh]
    rw [hlow, hhigh] at h
    refine ⟨fun k hk => ?_, fun y hy => ?_⟩
    · rcases List.mem_pair.mp hk with hk | hk <;> subst hk <;> omega
    · have hm := hy m (by simp)
      have hn := hy n (by simp)
      omega
  · rw [hlow, hhigh] at h
    have hm := hy m (by simp)
    have hn := hy n (by simp)
    omega

end Sys2Proof.Machine
end

section
/-! PROOF. The management unit's requests: the schedule load, the trip records, the status pages; and the input lines. -/

namespace Sys2Proof.Machine

/-! ## LOAD_SCHEDULE -/

theorem loaded_of_idle {c : ClSide} (h : c.tx = none) (ctx : PostContext) (way : LoadWay) (k₀ : Fin 32) :
    ({ c with schedule := { c.schedule with live := c.schedule.shadow, loadPending := false, pointer := k₀ } } : ClSide
      ).queueReport ctx (.scheduleLoaded (phaseCounts c.schedule.shadow) way) = c.loaded ctx way k₀ := by
  unfold ClSide.loaded
  rw [← h]

theorem loadIdle_of_idle {c : ClSide} (h : c.tx = none) (ctx : PostContext) :
    c.setPending.loadIdle ctx = (c.loaded ctx .idle 0).kick ctx := by
  rw [← loaded_of_idle h]
  rfl

theorem loadSchedule_pending {s : State} (h : s.cl.schedule.loadPending = true) : loadSchedule s = .refuse s .busy :=
  if_pos h

theorem loadSchedule_missing {s : State} {src : Source} (h : s.cl.schedule.loadPending = false)
    (hm : missingSource s.cl.schedule.shadow = some src) : loadSchedule s = .refuse s .badSchedule [src.code] := by
  unfold loadSchedule
  rw [if_neg (Bool.eq_false_iff.mp h), hm]

theorem loadSchedule_waits {s : State} (h : s.cl.schedule.loadPending = false)
    (hm : missingSource s.cl.schedule.shadow = none) (hw : s.cl.tx.isSome = true ∨ s.cl.anyWaiting = true) :
    loadSchedule s = .ok { s with cl := s.cl.setPending } [1] := by
  unfold loadSchedule
  rw [if_neg (Bool.eq_false_iff.mp h), hm]
  refine if_neg fun hno => ?_
  obtain ⟨h1, h2⟩ := Bool.and_eq_true_iff.mp hno
  rw [Option.isNone_iff_eq_none.mp h1, (Bool.not_eq_true' _).mp h2] at hw
  simp at hw

theorem loadSchedule_now {s : State} (h : s.cl.schedule.loadPending = false)
    (hm : missingSource s.cl.schedule.shadow = none) (htx : s.cl.tx = none) (hw : s.cl.anyWaiting = false) :
    loadSchedule s = .ok { s with cl := (s.cl.loaded s.postContext .idle 0).kick s.postContext } [0] := by
  unfold loadSchedule
  rw [if_neg (Bool.eq_false_iff.mp h), hm]
  refine (if_pos (by rw [htx, hw]; rfl)).trans ?_
  rw [← loadIdle_of_idle htx]
  rfl

/-- A load made at once: the report, when it is enabled, is at once selected (R158). -/
theorem loaded_kick {ctx : PostContext} {c : ClSide} (hm : missingSource c.schedule.shadow = none)
    (hw : c.anyWaiting = false) :
    ((c.loaded ctx .idle 0).kick ctx).schedule.live = c.schedule.shadow ∧
      ((c.loaded ctx .idle 0).kick ctx).schedule.shadow = c.schedule.shadow ∧
      ((c.loaded ctx .idle 0).kick ctx).schedule.loadPending = false ∧
      (reportEnabled ctx.mask .scheduleLoaded = false → (c.loaded ctx .idle 0).kick ctx = c.loaded ctx .idle 0) ∧
      (reportEnabled ctx.mask .scheduleLoaded = true → ∃ k : Fin 32,
        (c.loaded ctx .idle 0).kick ctx = (c.loaded ctx .idle 0).takePhase k ∧
        (c.loaded ctx .idle 0).waiting (c.loaded ctx .idle 0).schedule.live[k] = true ∧
        ∀ j < k, (c.loaded ctx .idle 0).waiting (c.loaded ctx .idle 0).schedule.live[j] = false) := by
  cases hmask : reportEnabled ctx.mask .scheduleLoaded with
  | false =>
    have hsilent := loadIdle_silent (ctx := ctx) hw hmask
    rw [hsilent, loaded_schedule]
    exact ⟨rfl, rfl, rfl, fun _ => rfl, nofun⟩
  | true =>
    obtain ⟨k, hk, hfirst⟩ := loadIdle_reports (ctx := ctx) hm hmask
    have hsched := takePhase_schedule (c.loaded ctx .idle 0) k
    rw [loaded_schedule] at hsched
    rw [hk, hsched]
    exact ⟨rfl, rfl, rfl, nofun, fun _ => ⟨k, rfl, hfirst⟩⟩

theorem loadSchedule_given {q : Request} {s t : State}
    (ha : Answered q (loadSchedule s).state (loadSchedule s).status (loadSchedule s).parts t) :
    if s.cl.schedule.loadPending = true then Answered q s .busy [[]] t
    else match missingSource s.cl.schedule.shadow with
      | some src => Answered q s .badSchedule [[src.code]] t
      | none =>
        (s.cl.tx.isSome = true ∨ s.cl.anyWaiting = true → Answered q { s with
          cl := { s.cl with schedule := { s.cl.schedule with loadPending := true } } } .ok [[1]] t) ∧
        (s.cl.tx = none → s.cl.anyWaiting = false → ∃ u, Answered q u .ok [[0]] t ∧
          u = { s with cl := u.cl } ∧ u.cl.schedule.live = s.cl.schedule.shadow ∧
          u.cl.schedule.shadow = s.cl.schedule.shadow ∧
          u.cl.schedule.loadPending = false ∧
          ∃ loaded : ClSide, loaded = ({ s.cl with schedule := { s.cl.schedule with
              live := s.cl.schedule.shadow, loadPending := false, pointer := 0 } } : ClSide).queueReport s.postContext
                (.scheduleLoaded (phaseCounts s.cl.schedule.shadow) .idle) ∧
            (reportEnabled s.settings.reportMask .scheduleLoaded = false → u.cl = loaded) ∧
            (reportEnabled s.settings.reportMask .scheduleLoaded = true → ∃ k : Fin 32, u.cl = loaded.takePhase k ∧
              loaded.waiting loaded.schedule.live[k] = true ∧
              ∀ j < k, loaded.waiting loaded.schedule.live[j] = false)) := by
  cases hp : s.cl.schedule.loadPending with
  | true =>
    rw [loadSchedule_pending hp] at ha
    exact ha
  | false =>
    rw [if_neg Bool.false_ne_true]
    split
    · next src hm =>
      rw [loadSchedule_missing hp hm] at ha
      exact ha
    · next hm =>
      refine ⟨fun hw => ?_, fun htx hw => ?_⟩
      · rw [loadSchedule_waits hp hm hw] at ha
        exact ha
      · rw [loadSchedule_now hp hm htx hw] at ha
        obtain ⟨hlive, hshadow, hpend, hsilent, hreports⟩ := loaded_kick (ctx := s.postContext) hm hw
        exact ⟨_, ha, rfl, hlive, hshadow, hpend, _, (loaded_of_idle htx _ _ _).symm, hsilent, hreports⟩

/-- Settles O48. -/
theorem scheduleLoadNeedsEverySource : Obligations.ScheduleLoadNeedsEverySource := by
  intro s q hq
  obtain ⟨t, hexec, hanswer⟩ := exec_answered hq nofun nofun
  exact ⟨t, hexec, loadSchedule_given (s := s.popRequest) hanswer⟩

/-! ## The trip records -/

theorem readTripRecord_written {s : State} {r : TripRecord} (h : s.ring.slots[s.ring.readPtr] = some r) :
    readTripRecord s = ⟨s.moveReadPtr (s.ring.readPtr + 1), .ok, r.parts s.ring.readPtr⟩ := by
  unfold readTripRecord
  dsimp only
  rw [h]

theorem readTripRecord_empty {s : State} (h : s.ring.slots[s.ring.readPtr] = none) : readTripRecord s =
    ⟨s.moveReadPtr (s.ring.readPtr + 1), .empty, [[1, natByte s.ring.readPtr]]⟩ := by
  unfold readTripRecord
  dsimp only
  rw [h]
  rfl

theorem oldest_eq (r : Ring) : r.oldest = if ∀ i : Fin 8, r.slots[i].isSome = true then r.writePtr else 0 := by
  refine if_congr ?_ rfl rfl
  rw [Vector.all_eq_true]
  exact ⟨fun h i => h i.val i.isLt, fun h i hi => h ⟨i, hi⟩⟩

/-- Settles O49. -/
theorem tripRecordsAreReadInTurn : Obligations.TripRecordsAreReadInTurn := by
  intro s q
  refine ⟨fun hq => ?_, fun hq => ?_⟩
  · obtain ⟨t, hexec, hanswer⟩ := exec_answered_of hq nofun nofun (rfl : _ = readTripRecord s.popRequest)
    refine ⟨t, hexec, fun r hr => ?_, fun hnone => ?_⟩
    · rw [readTripRecord_written (s := s.popRequest) hr] at hanswer
      exact hanswer
    · rw [readTripRecord_empty (s := s.popRequest) hnone] at hanswer
      exact hanswer
  · obtain ⟨t, hexec, hanswer⟩ := exec_answered_of hq nofun nofun (rfl : _ = rewindTripRecords s.popRequest)
    exact ⟨t, _, hexec, oldest_eq s.ring, hanswer⟩

/-- Settles O50. -/
theorem statusPagesChangeNothing : Obligations.StatusPagesChangeNothing := by
  intro s q k hq
  obtain ⟨t, hexec, hanswer⟩ := exec_answered_of hq nofun nofun (withIndex_natByte (by decide) k _ _)
  refine ⟨t, hexec, hanswer, fun hk => ?_, fun hk => ?_⟩
  · subst hk
    rfl
  · subst hk
    rfl

/-! ## The input lines -/

theorem find?_finRange_le {n : Nat} {p : Fin n → Bool} {k l : Fin n} (h : (List.finRange n).find? p = some k)
    (hl : p l = true) : k ≤ l := by
  obtain ⟨-, i, hi, hik, hbefore⟩ := List.find?_eq_some_iff_getElem.mp h
  by_contra hlt
  have hki : k.val = i := by
    rw [← hik]
    simp
  have hno := hbefore l.val (by rw [← hki]; exact Fin.not_le.mp hlt)
  rw [List.getElem_finRange] at hno
  have hcast : Fin.cast (List.length_finRange (n := n)) ⟨l.val, by simp⟩ = l := rfl
  simp only [Fin.cast_mk, Fin.eta, hl] at hno
  cases hno

theorem mem_groupsOf (b : Byte) (g : GroupIx) : g ∈ groupsOf b ↔ b.getLsbD g = true := by
  simp [groupsOf]

/-- An active line that maps the group: the lowest such line stands no later (R94, R104). -/
theorem activeLineFor_le {s : State} {l : LineIx} {g : GroupIx} (ha : s.inputs[l].isActive = true)
    (hg : g ∈ groupsOf s.inputs[l].groups) : ∃ n ≤ l, s.activeLineFor g = some n ∧ s.inputs[n].isActive = true ∧
      g ∈ groupsOf s.inputs[n].groups := by
  have hl : (s.inputs[l].isActive && inGroupSet s.inputs[l].groups g) = true :=
    Bool.and_eq_true_iff.mpr ⟨ha, (mem_groupsOf _ g).mp hg⟩
  have hsome : (s.activeLineFor g).isSome = true := List.find?_isSome.mpr ⟨l, List.mem_finRange l, hl⟩
  obtain ⟨n, hn⟩ := Option.isSome_iff_exists.mp hsome
  have hfound : (s.inputs[n].isActive && inGroupSet s.inputs[n].groups g) = true :=
    List.find?_some (p := fun l : LineIx => s.inputs[l].isActive && inGroupSet s.inputs[l].groups g) hn
  obtain ⟨hactive, hmaps⟩ := Bool.and_eq_true_iff.mp hfound
  exact ⟨n, find?_finRange_le hn hl, hn, hactive, (mem_groupsOf _ g).mpr hmaps⟩

theorem changeLevel_same {s : State} {l : LineIx} {level : Level} (h : level = s.inputs[l].held) :
    s.changeLevel l level = s := if_pos h.symm

/-- The held level after a change (R122). -/
def State.levelled (l : LineIx) (level : Level) (s : State) : State :=
  { s with inputs := upd s.inputs l fun r => { r with held := level } }

theorem levelled_line (l : LineIx) (level : Level) (s : State) :
    (s.levelled l level).inputs[l] = { s.inputs[l] with held := level } := upd_get_same _ _ _

theorem changeLevel_new {s : State} {l : LineIx} {level : Level} (h : level ≠ s.inputs[l].held) :
    ∃ (also : Option GroupIx) (n : Nat), (∀ g, also = some g → s.clearing = some g) ∧
      s.changeLevel l level = { s with
        inputs := upd s.inputs l (fun r => { r with held := level })
        freeCount := n
        cl := s.cl.post s.postContext (.inputChange l level (level == s.inputs[l].active) s.inputs[l].groups)
        inFlight := s.inFlight ++
          (if level = s.inputs[l].active then
            ((groupsOf s.inputs[l].groups).filter fun g => s.permitState g != .tripped || also == some g).map fun g =>
              (TripSender.tripUnit, ⟨g, ⟨.input, .line l⟩, none⟩)
          else []) } := by
  obtain ⟨v, hv⟩ : ∃ v, v = (s.levelled l level).post (.inputChange l level (s.levelled l level).inputs[l].isActive
    (s.levelled l level).inputs[l].groups) := ⟨_, rfl⟩
  obtain ⟨also, n, halso, heq⟩ := evaluateLineAgainst_cases s.clearing l v
  refine ⟨also, n, halso, ?_⟩
  have hchange : s.changeLevel l level = v.evaluateLineAgainst s.clearing l := by
    rw [hv]
    exact if_neg (Ne.symm h)
  have hline : v.inputs[l] = { s.inputs[l] with held := level } := by
    rw [hv]
    exact levelled_line l level s
  have htargets : v.lineTargets l also =
      (groupsOf s.inputs[l].groups).filter fun g => s.permitState g != .tripped || also == some g := by
    unfold State.lineTargets
    rw [hline, hv]
    rfl
  have hactive : v.inputs[l].isActive = true ↔ level = s.inputs[l].active := by
    rw [hline]
    exact beq_iff_eq
  rw [hchange, heq, htargets, if_congr hactive rfl rfl, hv, levelled_line]
  rfl

/-- Settles O53. -/
theorem activeLineSendsRequests : Obligations.ActiveLineSendsRequests := by
  intro s l level
  refine ⟨s.changeLevel l level, rfl, changeLevel_same, fun h => ?_⟩
  obtain ⟨also, n, halso, heq⟩ := changeLevel_new h
  rw [heq]
  refine ⟨rfl, rfl, ⟨also, fun g hg => clearing_eq_some (halso g hg), rfl⟩, fun hactive g hg => ?_⟩
  have hline : (upd s.inputs l fun r => { r with held := level })[l] = { s.inputs[l] with held := level } :=
    upd_get_same _ _ _
  refine activeLineFor_le ?_ ?_
  · dsimp only
    rw [hline]
    exact beq_iff_eq.mpr hactive
  · dsimp only
    rw [hline]
    exact hg

end Sys2Proof.Machine
end

section
/-! PROOF. The outcomes of a checked read. -/

namespace Sys2Proof.Machine

/-! ## A corrected record -/

theorem Stored.correct_outcome {F : Type} {r : Stored F} (h : r.outcome = .single) :
    r.correct.outcome = if r.lasts = true then .single else .clean := by
  obtain ⟨held, check, poisoned⟩ := r
  cases poisoned with
  | true => cases h
  | false => cases check <;> first | rfl | cases h

theorem noteCorrected_outcome {t : TableStore} {e : EntryRef} (h : t.outcome e = .single) :
    (t.noteCorrected e).outcome e = if t.lasts e = true then .single else .clean := by
  cases e with
  | axis a => exact (congrArg Stored.outcome (upd_get_same t.axes a _)).trans (Stored.correct_outcome h)
  | group g => exact (congrArg Stored.outcome (upd_get_same t.groups g _)).trans (Stored.correct_outcome h)
  | pair p => exact (congrArg Stored.outcome (upd_get_same t.pairs p _)).trans (Stored.correct_outcome h)
  | extent x => exact (congrArg Stored.outcome (upd_get_same t.extents x _)).trans (Stored.correct_outcome h)

theorem noteCorrected_errors (t : TableStore) (e : EntryRef) : (t.noteCorrected e).errors e.table =
    { t.errors e.table with corrected := satInc (t.errors e.table).corrected, last := .corrected e.index } := by
  cases e <;> rfl

theorem touch_corrected {b : ReadingBlock} {e : EntryRef} {s : State} (h : s.tables.outcome e = .single) :
    s.touch b e = { s with
      tables := s.tables.noteCorrected e
      cl := s.cl.post s.postContext
        (.tableError e (.corrected (satInc (s.tables.errors e.table).corrected)) b) } := by
  unfold State.touch State.touchWith
  rw [h]
  unfold State.correctEntry
  dsimp only
  rw [State.modTables_tables, noteCorrected_errors]
  rfl

/-! ## A poisoned record -/

/-- The record's mark and its table's error status stand (R140, R144). -/
def MarkedPoisoned (e : EntryRef) (t : TableStore) : Prop :=
  t.isPoisoned e = true ∧ (t.errors e.table).uncorrectable = true

theorem upd_poisoned {F : Type} {n : Nat} {v : Vector (Stored F) n} {i k : Fin n} {f : Stored F → Stored F}
    (hf : ∀ r, r.poisoned = true → (f r).poisoned = true) (h : v[k].poisoned = true) : (upd v i f)[k].poisoned = true := by
  rw [upd_get]
  split
  · next hi =>
    subst hi
    exact hf _ h
  · exact h

theorem Stored.correct_poisoned {F : Type} (r : Stored F) : r.correct.poisoned = r.poisoned := by
  unfold Stored.correct
  split <;> rfl

theorem isPoisoned_correct {e e' : EntryRef} {t : TableStore} (h : t.isPoisoned e = true) :
    (t.correct e').isPoisoned e = true := by
  have hf : ∀ {F : Type} (r : Stored F), r.poisoned = true → r.correct.poisoned = true := fun r hr =>
    (Stored.correct_poisoned r).trans hr
  cases e <;> cases e' <;> first | exact h | exact upd_poisoned hf h

theorem isPoisoned_poison {e e' : EntryRef} {t : TableStore} (h : t.isPoisoned e = true) :
    (t.poison e').isPoisoned e = true := by
  have hf : ∀ {F : Type} (r : Stored F), r.poisoned = true → r.poison.poisoned = true := fun r hr => rfl
  cases e <;> cases e' <;> first | exact h | exact upd_poisoned hf h

theorem isPoisoned_modErrors (e : EntryRef) (p : ProtectedTable) (f : ErrorStatus → ErrorStatus) (t : TableStore) :
    (t.modErrors p f).isPoisoned e = t.isPoisoned e := by
  cases p <;> cases e <;> rfl

theorem modErrors_uncorrectable {p k : ProtectedTable} {f : ErrorStatus → ErrorStatus} {t : TableStore}
    (hf : ∀ r, r.uncorrectable = true → (f r).uncorrectable = true) (h : (t.errors k).uncorrectable = true) :
    ((t.modErrors p f).errors k).uncorrectable = true := by
  cases p <;> cases k <;> first | exact h | exact hf _ h

theorem correct_errors (e : EntryRef) (t : TableStore) (k : ProtectedTable) : (t.correct e).errors k = t.errors k := by
  cases e <;> cases k <;> rfl

theorem poison_errors (e : EntryRef) (t : TableStore) (k : ProtectedTable) : (t.poison e).errors k = t.errors k := by
  cases e <;> cases k <;> rfl

theorem MarkedPoisoned.noteCorrected {e e' : EntryRef} {t : TableStore} (h : MarkedPoisoned e t) :
    MarkedPoisoned e (t.noteCorrected e') := by
  obtain ⟨hp, hu⟩ := h
  refine ⟨(isPoisoned_modErrors _ _ _ _).trans (isPoisoned_correct hp), modErrors_uncorrectable (fun _ hr => hr) ?_⟩
  rw [correct_errors]
  exact hu

theorem MarkedPoisoned.notePoisoned {e e' : EntryRef} {t : TableStore} (h : MarkedPoisoned e t) :
    MarkedPoisoned e (t.notePoisoned e') := by
  obtain ⟨hp, hu⟩ := h
  refine ⟨(isPoisoned_modErrors _ _ _ _).trans (isPoisoned_poison hp), modErrors_uncorrectable (fun _ _ => rfl) ?_⟩
  rw [poison_errors]
  exact hu

theorem markedPoisoned_note (e : EntryRef) (t : TableStore) : MarkedPoisoned e (t.notePoisoned e) := by
  cases e with
  | axis a => exact ⟨congrArg Stored.poisoned (upd_get_same t.axes a _), rfl⟩
  | group g => exact ⟨congrArg Stored.poisoned (upd_get_same t.groups g _), rfl⟩
  | pair p => exact ⟨congrArg Stored.poisoned (upd_get_same t.pairs p _), rfl⟩
  | extent x => exact ⟨congrArg Stored.poisoned (upd_get_same t.extents x _), rfl⟩

theorem outcome_of_poisoned {e : EntryRef} {t : TableStore} (h : t.isPoisoned e = true) : t.outcome e = .already := by
  cases e <;> exact if_pos h

theorem markedPoisoned_tripClosed (e : EntryRef) : TripClosed fun s => MarkedPoisoned e s.tables where
  post := fun _ _ h => h
  corrected := fun _ _ _ h => h.noteCorrected
  poisoned := fun _ _ _ h => h.notePoisoned
  close := fun sg s h => by
    rw [closeCheck_eq]
    exact h
  drop := fun _ _ h => h
  stop := fun _ _ _ h => h
  purge := fun _ _ h => h
  creepEnd := fun _ _ _ _ _ h => h
  record := fun _ _ _ _ h => h
  send := fun _ _ h => h
  toTripped := fun _ _ _ h => h
  further := fun _ _ _ h => h
  draw := fun _ h => h

/-! ## The integrity action of an uncorrectable error -/

/-- The state with the entry marked and the error reported (R140 steps 1 to 4). -/
def State.reported (b : ReadingBlock) (e : EntryRef) (s : State) : State := { s with
  tables := s.tables.notePoisoned e
  cl := s.cl.post s.postContext (.tableError e (.uncorrectable (s.namedGroup e)) b) }

/-- And after the request to the group named (R140 step 5). -/
def State.faulted (b : ReadingBlock) (e : EntryRef) (s : State) : State :=
  match s.namedGroup e with
  | some g => (s.reported b e).trip ⟨g, ⟨.tableFault, .entry e⟩, none⟩
  | none => s.reported b e

theorem touch_poisoned {b : ReadingBlock} {e : EntryRef} {s : State} (h : s.tables.outcome e = .uncorrectable) :
    s.touch b e = (s.faulted b e).afterPoison e := by
  unfold State.touch State.touchWith
  rw [h]
  unfold State.poisonEntry State.faulted State.tableFault
  dsimp only
  rw [namedGroup_notePoisoned]
  rfl

theorem faulted_keeps {P : State → Prop} (hP : TripClosed P) {b : ReadingBlock} {e : EntryRef} {s : State}
    (h : P (s.reported b e)) : P (s.faulted b e) := by
  unfold State.faulted
  split
  · exact hP.trip _ _ h
  · exact h

theorem afterPoison_keeps {P : State → Prop} (hP : TripClosed P) (e : EntryRef) {s : State} (h : P s) :
    P (s.afterPoison e) := by
  cases e with
  | axis a => exact hP.drop a _ (hP.abortChecks _ _ s h)
  | group g | pair p | extent x => exact h

theorem reported_quiet (b : ReadingBlock) (e : EntryRef) (s : State) : Quiet s (s.reported b e) :=
  ⟨rfl, by simp [State.reported], by simp [State.reported], rfl, rfl, rfl, rfl, rfl, rfl, rfl, rfl, rfl, rfl, rfl, rfl⟩

theorem faulted_quiet (b : ReadingBlock) (e : EntryRef) (s : State) : Quiet s (s.faulted b e) :=
  faulted_keeps (quiet_tripClosed s) (reported_quiet b e s)

/-- The entries of a poisoned axis leave the queues, and its link checks end ABORTED (R140 steps 6 and 7). -/
theorem afterPoison_axis (a : AxisIx) (w : State) : w.afterPoison (.axis a) = { w with
    checks := (w.afterPoison (.axis a)).checks
    egress := { w.egress with
      setpoints := (w.afterPoison (.axis a)).egress.setpoints
      checkSlot := (w.afterPoison (.axis a)).egress.checkSlot }
    cl := w.cl.withoutAxis w.postContext w.checks a } := by
  have habort := abortChecks_eq (· == a) (List.finRange 4) w
  have hcl := abortChecks_cl a (List.finRange 4) (List.nodup_finRange 4) w
  unfold State.afterPoison State.dropAxisEntries ClSide.withoutAxis
  dsimp only
  rw [← hcl]
  obtain ⟨u, hu⟩ : ∃ u, u = w.abortChecks (· == a) (List.finRange 4) := ⟨_, rfl⟩
  rw [← hu] at habort ⊢
  rw [habort]

theorem map_get {α β : Type} {n : Nat} (v : Vector α n) (f : α → β) (i : Fin n) : (v.map f)[i] = f v[i] := by
  simp only [Fin.getElem_fin, Vector.getElem_map]

theorem afterPoison_axis_segment (a : AxisIx) (w : State) (sg : SegIx) :
    (w.afterPoison (.axis a)).checks[sg] =
      (if w.checks[sg].inFlight = true ∧ w.checks[sg].axis = a then { w.checks[sg] with inFlight := false }
      else w.checks[sg]) ∧
    (w.afterPoison (.axis a)).egress.checkSlot[sg] =
      (if w.checks[sg].inFlight = true ∧ w.checks[sg].axis = a ∧ w.checks[sg].sent = false then none
      else w.egress.checkSlot[sg]) ∧
    (w.afterPoison (.axis a)).egress.setpoints[sg] = w.egress.setpoints[sg].filter fun q => q.axis != a := by
  obtain ⟨hchecks, hslot⟩ := abortChecks_checks (· == a) (List.finRange 4) (List.nodup_finRange 4) w sg
  have habort := abortChecks_eq (· == a) (List.finRange 4) w
  refine ⟨hchecks.trans ?_, hslot.trans ?_, (map_get _ _ _).trans ?_⟩
  · simp only [List.mem_finRange, true_and, beq_iff_eq]
  · simp only [List.mem_finRange, true_and, beq_iff_eq]
  · rw [habort]

theorem poisonedRead (s : State) (b : ReadingBlock) (e : EntryRef) (h : s.tables.outcome e = .uncorrectable) :
    (s.touch b e).tables.outcome e = .already ∧ Quiet s (s.touch b e) ∧
    (∃ v w : State,
      v = { s with
        tables := s.tables.notePoisoned e
        cl := s.cl.post s.postContext (.tableError e (.uncorrectable (s.namedGroup e)) b) } ∧
      w = (match s.namedGroup e with
        | some g => v.trip ⟨g, ⟨.tableFault, .entry e⟩, none⟩
        | none => v) ∧
      ((∀ a : AxisIx, e ≠ .axis a) → s.touch b e = w) ∧
      ∀ a : AxisIx, e = .axis a → s.touch b e = { w with
          checks := (s.touch b e).checks
          egress := { w.egress with
            setpoints := (s.touch b e).egress.setpoints, checkSlot := (s.touch b e).egress.checkSlot }
          cl := w.cl.withoutAxis s.postContext w.checks a } ∧
        ∀ sg : SegIx,
          (s.touch b e).checks[sg] =
            (if w.checks[sg].inFlight = true ∧ w.checks[sg].axis = a then { w.checks[sg] with inFlight := false }
            else w.checks[sg]) ∧
          (s.touch b e).egress.checkSlot[sg] =
            (if w.checks[sg].inFlight = true ∧ w.checks[sg].axis = a ∧ w.checks[sg].sent = false then none
            else w.egress.checkSlot[sg]) ∧
          (s.touch b e).egress.setpoints[sg] = w.egress.setpoints[sg].filter fun q => q.axis != a) ∧
    ((s.touch b e).tables.errors e.table).uncorrectable = true ∧
    (∀ g, s.namedGroup e = some g → s.permitState g = .primed ∨ s.permitState g = .live →
      (s.touch b e).permitState g = .tripped ∧
        (s.touch b e).permits[g].cause = some ⟨.tableFault, .entry e⟩) ∧
    (∀ a : AxisIx, e = .axis a → ∀ sg : SegIx,
      (∀ x ∈ (s.touch b e).egress.setpoints[sg], x.axis ≠ a) ∧ (∀ x ∈ (s.touch b e).cl.forward[sg], x.axis ≠ a)) := by
  have htouch := touch_poisoned (b := b) h
  have hmarked : MarkedPoisoned e (s.touch b e).tables := by
    rw [htouch]
    exact afterPoison_keeps (markedPoisoned_tripClosed e) e
      (faulted_keeps (markedPoisoned_tripClosed e) (markedPoisoned_note e s.tables))
  refine ⟨outcome_of_poisoned hmarked.1, Quiet.touch b e s, ⟨s.reported b e, s.faulted b e, rfl, rfl, fun hne => ?_,
    fun a ha => ?_⟩, hmarked.2, fun g hg hp => ?_, fun a ha sg => ⟨fun x hx => ?_, fun x hx => ?_⟩⟩
  · rw [htouch]
    cases e with
    | axis a => exact absurd rfl (hne a)
    | group g | pair p | extent x => rfl
  · subst ha
    rw [htouch]
    have hcontext : (s.faulted b (.axis a)).postContext = s.postContext := (faulted_quiet b (.axis a) s).postContext
    refine ⟨?_, afterPoison_axis_segment a _⟩
    have haxis := afterPoison_axis a (s.faulted b (.axis a))
    rw [hcontext] at haxis
    exact haxis
  · have hby : TrippedBy ⟨g, ⟨.tableFault, .entry e⟩, none⟩ (s.faulted b e) := by
      unfold State.faulted
      rw [hg]
      exact trip_trippedBy (hp.imp_right .inl)
    rw [htouch]
    have hafter := afterPoison_keeps (trippedBy_tripClosed _) e hby
    exact ⟨hafter.state, hafter.cause⟩
  · subst ha
    rw [htouch, (afterPoison_axis_segment a _ sg).2.2] at hx
    simpa using (List.mem_filter.mp hx).2
  · subst ha
    rw [htouch, afterPoison_axis] at hx
    exact mem_withoutAxis hx

/-- Settles O54. -/
theorem checkedReadCorrectsOrPoisons : Obligations.CheckedReadCorrectsOrPoisons := by
  refine ⟨fun F f g => ⟨rfl, rfl⟩, fun s b e => ⟨touchWith_clean _ b e s, fun h => ?_, poisonedRead s b e⟩⟩
  rw [touch_corrected h]
  refine ⟨noteCorrected_outcome h, rfl, rfl, ?_, ?_⟩
  · exact congrArg ErrorStatus.corrected (noteCorrected_errors s.tables e)
  · exact congrArg ErrorStatus.last (noteCorrected_errors s.tables e)

end Sys2Proof.Machine
end

section
/-! PROOF. The soft reset: what the blocks' resets come to together, in whatever order they are taken. -/

namespace Sys2Proof.Machine

/-! ## What the arbiters' choices leave of a segment -/

/-- A busy segment keeps its frame and its BEACON owed; an empty source stays empty. -/
structure CalmAt (e e' : Egress) (j : SegIx) : Prop where
  busy : e.tx[j].isSome = true → e'.tx[j] = e.tx[j] ∧ e'.beacon[j] = e.beacon[j]
  stopSet : e.stopSet[j] = [] → e'.stopSet[j] = []
  setpoints : e.setpoints[j] = [] → e'.setpoints[j] = []
  checkSlot : e.checkSlot[j] = none → e'.checkSlot[j] = none

theorem CalmAt.refl (e : Egress) (j : SegIx) : CalmAt e e j := ⟨fun _ => ⟨rfl, rfl⟩, id, id, id⟩

theorem CalmAt.trans {e f g : Egress} {j : SegIx} (h : CalmAt e f j) (k : CalmAt f g j) : CalmAt e g j where
  busy := fun hb => by
    obtain ⟨htx, hbe⟩ := h.busy hb
    obtain ⟨htx', hbe'⟩ := k.busy (by rw [htx]; exact hb)
    exact ⟨htx'.trans htx, hbe'.trans hbe⟩
  stopSet := k.stopSet ∘ h.stopSet
  setpoints := k.setpoints ∘ h.setpoints
  checkSlot := k.checkSlot ∘ h.checkSlot

theorem CalmAt.of_eq {e e' : Egress} {j : SegIx} (htx : e'.tx[j] = e.tx[j]) (hb : e'.beacon[j] = e.beacon[j])
    (hs : e'.stopSet[j] = e.stopSet[j]) (hp : e'.setpoints[j] = e.setpoints[j])
    (hc : e'.checkSlot[j] = e.checkSlot[j]) : CalmAt e e' j :=
  ⟨fun _ => ⟨htx, hb⟩, fun h => hs.trans h, fun h => hp.trans h, fun h => hc.trans h⟩

theorem calm_unstop {e : Egress} {sg : SegIx} (a : AxisIx) (j : SegIx) :
    CalmAt e { e with stopSet := upd e.stopSet sg (·.filter (· != a)) } j := by
  refine ⟨fun _ => ⟨rfl, rfl⟩, fun h => ?_, id, id⟩
  dsimp only
  rw [upd_get]
  split
  · next hj => subst hj; rw [h]; rfl
  · exact h

theorem calm_dequeue {e : Egress} {sg : SegIx} (j : SegIx) :
    CalmAt e { e with setpoints := upd e.setpoints sg List.tail } j := by
  refine ⟨fun _ => ⟨rfl, rfl⟩, id, fun h => ?_, id⟩
  dsimp only
  rw [upd_get]
  split
  · next hj => subst hj; rw [h]; rfl
  · exact h

theorem calm_unslot {e : Egress} {sg : SegIx} (j : SegIx) :
    CalmAt e { e with checkSlot := e.checkSlot.set sg none } j := by
  refine ⟨fun _ => ⟨rfl, rfl⟩, id, id, fun h => ?_⟩
  dsimp only
  rw [set_get]
  split
  · rfl
  · exact h

theorem calm_transmit {e : Egress} {sg : SegIx} (h : e.tx[sg] = none) (f : Option (List Byte)) (j : SegIx) :
    CalmAt e { e with tx := e.tx.set sg f } j := by
  refine ⟨fun hb => ⟨?_, rfl⟩, id, id, id⟩
  dsimp only
  rw [set_get]
  split
  · next hj => subst hj; rw [h] at hb; cases hb
  · rfl

theorem calm_unbeacon {e : Egress} {sg : SegIx} (h : e.tx[sg] = none) (j : SegIx) :
    CalmAt e { e with beacon := e.beacon.set sg false } j := by
  refine ⟨fun hb => ⟨rfl, ?_⟩, id, id, id⟩
  dsimp only
  rw [set_get]
  split
  · next hj => subst hj; rw [h] at hb; cases hb
  · rfl

theorem sendStop_calm {sg : SegIx} {a : AxisIx} {s : State} (hs : s.Sound) (h : s.egress.tx[sg] = none) (j : SegIx) :
    CalmAt s.egress (s.sendStop sg a).egress j := by
  unfold State.sendStop
  simp only [touch_sound _ _ (s.modEgress _) hs]
  split
  · exact (calm_unstop a j).trans
      (calm_transmit (e := { s.egress with stopSet := upd s.egress.stopSet sg (·.filter (· != a)) }) h _ j)
  · exact calm_unstop a j

theorem sendBeacon_calm {sg : SegIx} {s : State} (h : s.egress.tx[sg] = none) (j : SegIx) :
    CalmAt s.egress (s.sendBeacon sg).egress j :=
  (calm_unbeacon h j).trans (calm_transmit (e := { s.egress with beacon := s.egress.beacon.set sg false }) h _ j)

theorem sendSetpoint_calm {sg : SegIx} {q : SetpointEntry} {s : State} (hs : s.Sound) (h : s.egress.tx[sg] = none)
    (j : SegIx) : CalmAt s.egress (s.sendSetpoint sg q).egress j := by
  unfold State.sendSetpoint
  simp only [touch_sound _ _ (s.modEgress _) hs]
  split
  · exact calm_dequeue j
  · exact (calm_dequeue j).trans
      (calm_transmit (e := { s.egress with setpoints := upd s.egress.setpoints sg List.tail }) h _ j)

theorem sendCheck_calm {sg : SegIx} {c : CheckFrame} {s : State} (hs : s.Sound) (h : s.egress.tx[sg] = none)
    (j : SegIx) : CalmAt s.egress (s.sendCheck sg c).egress j := by
  unfold State.sendCheck
  simp only [touch_sound _ _ (s.modEgress _) hs]
  split
  · exact calm_unslot j
  · exact (calm_unslot j).trans
      (calm_transmit (e := { s.egress with checkSlot := s.egress.checkSlot.set sg none }) h _ j)

theorem choose_calm {sg : SegIx} {s : State} (hs : s.Sound) (h : s.egress.tx[sg] = none) (j : SegIx) :
    CalmAt s.egress (s.choose sg).egress j := by
  have hpick := pick_frame s.egress.stopSet[sg] s
  unfold State.choose
  split
  · next a u hu =>
    rw [hu] at hpick
    dsimp only at hpick
    rw [hpick]
    exact sendStop_calm (s := { s with freeCount := u.freeCount }) hs h j
  · next u hu =>
    rw [hu] at hpick
    dsimp only at hpick
    rw [hpick]
    split
    · exact sendBeacon_calm (s := { s with freeCount := u.freeCount }) h j
    · split
      · exact sendSetpoint_calm (s := { s with freeCount := u.freeCount }) hs h j
      · split
        · exact sendCheck_calm (s := { s with freeCount := u.freeCount }) hs h j
        · exact CalmAt.refl _ j

theorem settleFor_calm (n : Nat) (s : State) (hs : s.Sound) (j : SegIx) :
    CalmAt s.egress (s.settleFor n).egress j := by
  induction n generalizing s with
  | zero => exact CalmAt.refl _ j
  | succ n ih =>
    unfold State.settleFor
    by_cases hne : s.egress.idleWaiting = []
    · rw [hne]
      exact CalmAt.refl _ j
    · obtain ⟨sg, hsg, hpick⟩ := pick_mem _ s hne
      have hframe := pick_frame s.egress.idleWaiting s
      obtain ⟨o, u, hu⟩ : ∃ o u, s.pick s.egress.idleWaiting = (o, u) := ⟨_, _, rfl⟩
      rw [hu] at hpick hframe ⊢
      cases hpick
      dsimp only at hframe ⊢
      have hidle := (List.mem_filter.mp hsg).2
      obtain ⟨htx, -⟩ := Bool.and_eq_true_iff.mp hidle
      have hu' : u.Sound := Sound.of_tables hs (by rw [hframe])
      have heg : u.egress = s.egress := by rw [hframe]
      have hnone : u.egress.tx[sg] = none := by
        rw [heg]
        exact Option.isNone_iff_eq_none.mp htx
      have hcalm := choose_calm hu' hnone j
      rw [heg] at hcalm
      exact hcalm.trans (ih _ (Sound.of_tables hu' (choose_same sg u hu').tables))

theorem settle_calm {s : State} (hs : s.Sound) (j : SegIx) : CalmAt s.egress s.settle.egress j :=
  settleFor_calm _ s hs j

end Sys2Proof.Machine
end

section
/-! PROOF. SOFT_RESET: its acceptance, its parts, and what all of them leave (R153, R154). -/

namespace Sys2Proof.Machine

/-! ## The parts of the soft reset, taken in any order -/

/-- An axis record after the monitor's, the admission unit's or the check unit's reset, as far as they are done. -/
def AxisRecord.cleared (monitor admission check : Bool) (r : AxisRecord) : AxisRecord where
  checked := if check then false else r.checked
  latest := if monitor then none else r.latest
  arrived := if monitor then false else r.arrived
  missCount := if monitor then 0 else r.missCount
  lost := if monitor then false else r.lost
  intrusion := if monitor then false else r.intrusion
  lateCount := if monitor then 0 else r.lateCount
  clampCount := if admission then 0 else r.clampCount
  refusalReported := if admission then false else r.refusalReported

def TableStore.cleared (t : TableStore) : TableStore :=
  { t with axisErrors := .clean, groupErrors := .clean, pairErrors := .clean, extentErrors := .clean, scrubPos := 0 }

def ClSide.cleared (monitor management scheduler : Bool) (c : ClSide) : ClSide :=
  { c with
    forward := if monitor then Vector.replicate 4 [] else c.forward
    reports := if management then [] else c.reports
    overrunTotal := if management then 0 else c.overrunTotal
    schedule := { c.schedule with
      loadPending := if scheduler then false else c.schedule.loadPending
      pointer := if scheduler then 0 else c.schedule.pointer } }

/-- The state after the resets of the blocks that are done, but for what the arbiters' choices and the lines touch. -/
def State.afterResets (done : ResetBlock → Bool) (s : State) : State :=
  { s with
    timer := if done .timer then { s.timer with cycle := 0, phase := 0 } else s.timer
    tables := if done .tables then s.tables.cleared else s.tables
    axisRec := s.axisRec.map (AxisRecord.cleared (done .monitor) (done .admission) (done .check))
    pairRec := if done .monitor then Vector.replicate 32 .reset else s.pairRec
    waypoints := if done .monitor then Vector.replicate 64 ⟨none, none⟩ else s.waypoints
    permits := if done .permit then Vector.replicate 8 .reset else s.permits
    brk := if done .permit then Vector.replicate 8 false else s.brk
    zones := if done .zone then Vector.replicate 16 none else s.zones
    creep := if done .check then Vector.replicate 8 .reset else s.creep
    segPorts := Vector.ofFn fun sg : SegIx =>
      if done (.port (.seg sg)) then ⟨s.segPorts[sg].port.clearBad, 0⟩ else s.segPorts[sg]
    clPort := if done (.port .cl) then ⟨s.clPort.port.clearBad, 0⟩ else s.clPort
    cl := s.cl.cleared (done .monitor) (done .management) (done .scheduler) }

/-- The states agree but for the arbiters' side, the requests in flight, the draws and the resets still to take. -/
def Elsewhere (u v : State) : Prop :=
  u = { v with
    egress := u.egress, checks := u.checks, inFlight := u.inFlight, freeCount := u.freeCount, resets := u.resets }

theorem ports_afterReset (ports : Vector SegPort 4) (done : SegIx → Bool) (sg : SegIx) (h : done sg = false) :
    upd (Vector.ofFn fun k => if done k = true then ⟨ports[k].port.clearBad, 0⟩ else ports[k]) sg
        (fun q => ⟨q.port.clearBad, 0⟩) =
      Vector.ofFn fun k => if k = sg ∨ done k = true then ⟨ports[k].port.clearBad, 0⟩ else ports[k] := by
  refine Vector.ext fun i hi => ?_
  change (upd _ sg _)[(⟨i, hi⟩ : SegIx)] = _
  rw [upd_get]
  by_cases hk : sg = ⟨i, hi⟩
  · subst hk
    simp [h]
  · simp [hk, Ne.symm hk]

theorem resetBlock_elsewhere (b : ResetBlock) {u s : State} {done : ResetBlock → Bool} (hb : done b = false)
    (h : Elsewhere u (s.afterResets done)) :
    Elsewhere (u.resetBlock b) (s.afterResets (Function.update done b true)) := by
  unfold Elsewhere at h
  generalize u.egress = e, u.checks = k, u.inFlight = i, u.freeCount = n, u.resets = r at h
  subst h
  unfold Elsewhere State.resetBlock State.afterResets
  cases b with
  | trip =>
    unfold State.resetTrips
    rw [evaluateLines_eq, inFreeOrder_state]
    simp
  | port p =>
    cases p with
    | cl => simp [State.resetPort, State.modClPort, hb]
    | seg sg =>
      have hports := ports_afterReset s.segPorts (fun k => done (.port (.seg k))) sg hb
      simp [State.resetPort, State.modSegPort, Function.update_apply]
      exact hports
  | tables => simp [State.resetTables, State.modTables, hb, TableStore.cleared, TableStore.clearErrors]
  | timer => simp [State.resetTimer, hb]
  | monitor =>
    simp [State.resetMonitor, hb, AxisRecord.cleared, AxisRecord.monitorReset, AxisRecord.reset, ClSide.cleared]
  | admission => 
    simp [State.resetAdmission, hb, AxisRecord.cleared]
  | permit => simp [State.resetPermits]
  | zone => simp [State.resetZones]
  | check => simp [State.resetChecks, hb, AxisRecord.cleared]
  | management => simp [State.resetManagement, hb, ClSide.cleared]
  | scheduler => simp [State.resetScheduler, hb, ClSide.cleared]

/-- What the resets of the blocks not in the list leave of the segments' side. -/
structure EgressStage (left : List ResetBlock) (s u : State) : Prop where
  busy : ∀ sg : SegIx, s.egress.tx[sg].isSome = true → u.egress.tx[sg] = s.egress.tx[sg]
  phase : ∀ sg : SegIx, u.checks[sg].phase = s.checks[sg].phase
  beacon : .timer ∉ left → ∀ sg : SegIx, s.egress.tx[sg].isSome = true → u.egress.beacon[sg] = true
  setpoints : .admission ∉ left → ∀ sg : SegIx, u.egress.setpoints[sg] = []
  stopSet : .trip ∉ left → ∀ sg : SegIx, u.egress.stopSet[sg] = []
  slot : .check ∉ left → ∀ sg : SegIx, u.egress.checkSlot[sg] = none
  idle : .check ∉ left → ∀ sg : SegIx, u.checks[sg].inFlight = false

theorem notMem_of_notMem_erase {b c : ResetBlock} {l : List ResetBlock} (h : c ∉ l.erase b) (hne : c ≠ b) : c ∉ l :=
  fun hc => h ((List.mem_erase_of_ne hne).mpr hc)

/-- A block that owns none of the segments' side. -/
theorem EgressStage.erase {b : ResetBlock} {s u v : State} (h : EgressStage u.resets s u) (he : v.egress = u.egress)
    (hc : v.checks = u.checks) (ht : .timer ≠ b) (ha : .admission ≠ b) (hp : .trip ≠ b) (hk : .check ≠ b) :
    EgressStage (u.resets.erase b) s v where
  busy := by rw [he]; exact h.busy
  phase := by rw [hc]; exact h.phase
  beacon := fun hl => by rw [he]; exact h.beacon (notMem_of_notMem_erase hl ht)
  setpoints := fun hl => by rw [he]; exact h.setpoints (notMem_of_notMem_erase hl ha)
  stopSet := fun hl => by rw [he]; exact h.stopSet (notMem_of_notMem_erase hl hp)
  slot := fun hl => by rw [he]; exact h.slot (notMem_of_notMem_erase hl hk)
  idle := fun hl => by rw [hc]; exact h.idle (notMem_of_notMem_erase hl hk)

theorem replicate_get {α : Type} {n : Nat} (x : α) (i : Fin n) : (Vector.replicate n x)[i] = x :=
  Vector.getElem_replicate i.isLt

theorem resetTrips_eq (u : State) : u.resetTrips = { u with
    egress := { u.egress with stopSet := Vector.replicate 4 [] }
    freeCount := u.resetTrips.freeCount
    inFlight := u.resetTrips.inFlight } := by
  unfold State.resetTrips
  rw [evaluateLines_eq, inFreeOrder_state]
  rfl

theorem resetBlock_egressStage (b : ResetBlock) {s u : State} (h : EgressStage u.resets s u) :
    EgressStage (u.resets.erase b) s (u.resetBlock b) := by
  cases b with
  | timer => exact {
      busy := h.busy
      phase := h.phase
      beacon := fun _ sg _ => replicate_get true sg
      setpoints := fun hl => h.setpoints (notMem_of_notMem_erase hl nofun)
      stopSet := fun hl => h.stopSet (notMem_of_notMem_erase hl nofun)
      slot := fun hl => h.slot (notMem_of_notMem_erase hl nofun)
      idle := fun hl => h.idle (notMem_of_notMem_erase hl nofun) }
  | admission => exact {
      busy := h.busy
      phase := h.phase
      beacon := fun hl => h.beacon (notMem_of_notMem_erase hl nofun)
      setpoints := fun _ sg => replicate_get [] sg
      stopSet := fun hl => h.stopSet (notMem_of_notMem_erase hl nofun)
      slot := fun hl => h.slot (notMem_of_notMem_erase hl nofun)
      idle := fun hl => h.idle (notMem_of_notMem_erase hl nofun) }
  | trip =>
    change EgressStage _ s u.resetTrips
    rw [resetTrips_eq]
    exact {
      busy := h.busy
      phase := h.phase
      beacon := fun hl => h.beacon (notMem_of_notMem_erase hl nofun)
      setpoints := fun hl => h.setpoints (notMem_of_notMem_erase hl nofun)
      stopSet := fun _ sg => replicate_get [] sg
      slot := fun hl => h.slot (notMem_of_notMem_erase hl nofun)
      idle := fun hl => h.idle (notMem_of_notMem_erase hl nofun) }
  | check =>
    have hchecks : ∀ sg : SegIx, u.resetChecks.checks[sg] = { LinkCheck.reset with phase := u.checks[sg].phase } :=
      fun sg => map_get _ _ sg
    exact {
      busy := h.busy
      phase := fun sg => (congrArg LinkCheck.phase (hchecks sg)).trans (h.phase sg)
      beacon := fun hl => h.beacon (notMem_of_notMem_erase hl nofun)
      setpoints := fun hl => h.setpoints (notMem_of_notMem_erase hl nofun)
      stopSet := fun hl => h.stopSet (notMem_of_notMem_erase hl nofun)
      slot := fun _ sg => replicate_get none sg
      idle := fun _ sg => congrArg LinkCheck.inFlight (hchecks sg) }
  | port p => cases p <;> exact h.erase rfl rfl nofun nofun nofun nofun
  | _ => exact h.erase rfl rfl nofun nofun nofun nofun

theorem EgressStage.settle {left : List ResetBlock} {s u : State} (hu : u.Sound) (h : EgressStage left s u) :
    EgressStage left s u.settle := by
  have hcalm := settle_calm hu
  have hchecks := (settle_same u hu).2
  have hbusy : ∀ sg : SegIx, s.egress.tx[sg].isSome = true → u.egress.tx[sg].isSome = true := fun sg hsg => by
    rw [h.busy sg hsg]
    exact hsg
  exact {
    busy := fun sg hsg => ((hcalm sg).busy (hbusy sg hsg)).1.trans (h.busy sg hsg)
    phase := fun sg => by rw [hchecks sg]; exact h.phase sg
    beacon := fun hl sg hsg => ((hcalm sg).busy (hbusy sg hsg)).2.trans (h.beacon hl sg hsg)
    setpoints := fun hl sg => (hcalm sg).setpoints (h.setpoints hl sg)
    stopSet := fun hl sg => (hcalm sg).stopSet (h.stopSet hl sg)
    slot := fun hl sg => (hcalm sg).checkSlot (h.slot hl sg)
    idle := fun hl sg => by rw [hchecks sg]; exact h.idle hl sg }

/-! ## Every block has taken it -/

/-- A request that the evaluation of the active lines sends (R125). -/
def LineRequest (s : State) (x : TripSender × TripRequest) : Prop :=
  ∃ (n : LineIx) (g : GroupIx), s.inputs[n].isActive = true ∧ g ∈ groupsOf s.inputs[n].groups ∧
    x = (TripSender.resetEvaluation, ⟨g, ⟨.input, .line n⟩, none⟩)

/-- The blocks not in the list of u have taken their resets, begun from s. -/
structure ResetStage (s u : State) : Prop where
  rest : Elsewhere u (s.afterResets fun b => decide (b ∉ u.resets))
  nodup : u.resets.Nodup
  egress : EgressStage u.resets s u
  waits : .trip ∈ u.resets → u.inFlight = s.inFlight
  lines : .trip ∉ u.resets → ∃ l, u.inFlight = s.inFlight ++ l ∧ ∀ x, x ∈ l ↔ LineRequest s x

theorem afterResets_none (s : State) : s.afterResets (fun _ => false) = s := by
  have hports : (Vector.ofFn fun sg : SegIx => s.segPorts[sg]) = s.segPorts := Vector.ext fun i hi => by simp
  have haxes : s.axisRec.map (AxisRecord.cleared false false false) = s.axisRec := Vector.map_id _
  unfold State.afterResets
  simp only [Bool.false_eq_true, if_false]
  rw [hports, haxes]
  rfl

theorem resetStage_begin {s : State} (h : s.resets = ResetBlock.all) : ResetStage s s := by
  have hmem : ∀ b, b ∈ s.resets := fun b => by rw [h]; exact mem_resetBlock_all b
  refine ⟨?_, by rw [h]; decide, ⟨fun _ _ => rfl, fun _ => rfl, ?_, ?_, ?_, ?_, ?_⟩, fun _ => rfl, ?_⟩
  · simp only [hmem, not_true_eq_false, decide_false, afterResets_none]
    rfl
  all_goals exact fun hn => absurd (hmem _) hn

theorem lineRequests_disarmed {s u : State} (hp : u.permits = Vector.replicate 8 .reset) (hi : u.inputs = s.inputs)
    {lines : List LineIx} (hl : ∀ n, n ∈ lines ↔ s.inputs[n].isActive = true)
    (x : TripSender × TripRequest) : x ∈ lineRequests u lines ↔ LineRequest s x := by
  have hstate : ∀ g, u.permitState g = .disarmed := fun g => by
    unfold State.permitState
    rw [hp, replicate_get]
    rfl
  simp only [lineRequests, LineRequest, List.mem_flatMap, hl, hi]
  refine exists_congr fun n => ?_
  constructor
  · rintro ⟨ha, hx⟩
    rw [if_pos ha] at hx
    obtain ⟨g, hg, rfl⟩ := List.mem_map.mp hx
    exact ⟨g, ha, (List.mem_filter.mp hg).1, rfl⟩
  · rintro ⟨g, ha, hg, rfl⟩
    rw [if_pos ha]
    exact ⟨ha, List.mem_map.mpr ⟨g, List.mem_filter.mpr ⟨hg, by rw [hstate g]; rfl⟩, rfl⟩⟩

theorem resetBlock_inFlight {b : ResetBlock} (h : b ≠ .trip) (u : State) : (u.resetBlock b).inFlight = u.inFlight := by
  cases b with
  | trip => exact absurd rfl h
  | port p => cases p <;> rfl
  | _ => rfl

theorem resetTrips_inFlight (u : State) : ∃ lines : List LineIx,
    (∀ n, n ∈ lines ↔ u.inputs[n].isActive = true) ∧
      u.resetTrips.inFlight = u.inFlight ++ lineRequests u lines := by
  unfold State.resetTrips
  rw [evaluateLines_eq]
  refine ⟨_, fun n => ?_, rfl⟩
  simp [mem_inFreeOrder]

end Sys2Proof.Machine
end

section
/-! PROOF. SOFT_RESET: every block takes it, and the command's obligation (R153, R154). -/

namespace Sys2Proof.Machine

/-! ## One block's turn -/

theorem EgressStage.of_eq {left : List ResetBlock} {s u v : State} (h : EgressStage left s u)
    (he : v.egress = u.egress) (hc : v.checks = u.checks) : EgressStage left s v where
  busy := by rw [he]; exact h.busy
  phase := by rw [hc]; exact h.phase
  beacon := by rw [he]; exact h.beacon
  setpoints := by rw [he]; exact h.setpoints
  stopSet := by rw [he]; exact h.stopSet
  slot := by rw [he]; exact h.slot
  idle := by rw [hc]; exact h.idle

theorem Elsewhere.trans {u v w : State} (h : Elsewhere u v) (k : Elsewhere v w) : Elsewhere u w := by
  unfold Elsewhere at *
  rw [h, k]

theorem elsewhere_resets (u : State) (r : List ResetBlock) : Elsewhere { u with resets := r } u := rfl

theorem elsewhere_draw {u v : State} (h : v = { u with freeCount := v.freeCount }) : Elsewhere v u := by
  rw [h]
  rfl

theorem elsewhere_settle {u : State} (hu : u.Sound) : Elsewhere u.settle u := by
  have hsame := (settle_same u hu).1
  obtain ⟨v, hv⟩ : ∃ v, v = u.settle := ⟨_, rfl⟩
  rw [← hv] at hsame ⊢
  rw [hsame]
  rfl

/-- The draws are no part of it. -/
theorem ResetStage.draw {s u v : State} (h : ResetStage s u) (hv : v = { u with freeCount := v.freeCount }) :
    ResetStage s v := by
  have hrest := (elsewhere_draw hv).trans h.rest
  have hresets : v.resets = u.resets := by rw [hv]
  have hflight : v.inFlight = u.inFlight := by rw [hv]
  refine ⟨?_, ?_, ?_, ?_, ?_⟩
  · rw [hresets]
    exact hrest
  · rw [hresets]
    exact h.nodup
  · rw [hresets]
    exact h.egress.of_eq (by rw [hv]) (by rw [hv])
  · rw [hresets, hflight]
    exact h.waits
  · rw [hresets, hflight]
    exact h.lines

theorem done_erase {b : ResetBlock} {l : List ResetBlock} (h : l.Nodup) :
    Function.update (fun c => decide (c ∉ l)) b true = fun c => decide (c ∉ l.erase b) := by
  funext c
  by_cases hc : c = b
  · subst hc
    simp [h.not_mem_erase]
  · simp [hc, List.mem_erase_of_ne hc]

theorem ResetStage.permits {s u : State} (h : ResetStage s u) (hp : .permit ∉ u.resets) :
    u.permits = Vector.replicate 8 .reset := by
  rw [h.rest]
  exact if_pos (decide_eq_true hp)

theorem ResetStage.inputs {s u : State} (h : ResetStage s u) : u.inputs = s.inputs := by
  rw [h.rest]
  rfl

/-- The trip unit's turn is the last. -/
theorem trip_waits {u : State} (h : .trip ∈ u.readyResets) {c : ResetBlock} (hc : c ≠ .trip) : c ∉ u.resets :=
  ((mem_readyResets u .trip).mp h).2 c (List.mem_filter.mpr ⟨mem_resetBlock_all c, bne_iff_ne.mpr hc⟩)

theorem ResetStage.block {s u : State} {b : ResetBlock} (h : ResetStage s u) (hb : b ∈ u.readyResets) :
    ResetStage s ((u.resetBlock b).doneReset b) := by
  have hmem : b ∈ u.resets := ((mem_readyResets u b).mp hb).1
  have hleft : ((u.resetBlock b).doneReset b).resets = u.resets.erase b :=
    congrArg (List.erase · b) (resetBlock_kept b u).2
  have hother : b ≠ .trip → ((u.resetBlock b).doneReset b).inFlight = u.inFlight := fun hne => resetBlock_inFlight hne u
  refine ⟨?_, ?_, ?_, ?_, ?_⟩
  · have hstep := resetBlock_elsewhere b (decide_eq_false (not_not_intro hmem)) h.rest
    rw [done_erase h.nodup] at hstep
    rw [hleft]
    exact (elsewhere_resets (u.resetBlock b) _).trans hstep
  · rw [hleft]
    exact h.nodup.erase b
  · rw [hleft]
    exact (resetBlock_egressStage b h.egress).of_eq rfl rfl
  · rw [hleft]
    intro ht
    obtain ⟨hne, ht'⟩ := h.nodup.mem_erase_iff.mp ht
    rw [hother (Ne.symm hne)]
    exact h.waits ht'
  · rw [hleft]
    intro ht
    by_cases hbt : b = .trip
    · subst hbt
      obtain ⟨lines, hlines, hflight⟩ := resetTrips_inFlight u
      rw [h.inputs] at hlines
      refine ⟨lineRequests u lines, hflight.trans ?_, lineRequests_disarmed (h.permits (trip_waits hb nofun)) h.inputs hlines⟩
      rw [h.waits hmem]
    · rw [hother hbt]
      exact h.lines (notMem_of_notMem_erase ht (Ne.symm hbt))

theorem ResetStage.settle {s u : State} (hu : u.Sound) (h : ResetStage s u) : ResetStage s u.settle := by
  have hq := Quiet.settle u
  have hflight : u.settle.inFlight = u.inFlight := by rw [(settle_same u hu).1]
  refine ⟨?_, ?_, ?_, ?_, ?_⟩
  · rw [hq.resets]
    exact (elsewhere_settle hu).trans h.rest
  · rw [hq.resets]
    exact h.nodup
  · rw [hq.resets]
    exact h.egress.settle hu
  · rw [hq.resets, hflight]
    exact h.waits
  · rw [hq.resets, hflight]
    exact h.lines

theorem resetBlock_sound {b : ResetBlock} {u : State} (hu : u.Sound) : (u.resetBlock b).Sound := by
  by_cases hb : b = .trip
  · subst hb
    refine Sound.of_tables hu ?_
    change u.resetTrips.tables = u.tables
    rw [resetTrips_eq]
  · exact sound_tableLaw.resetBlock b u hb hu

theorem resetStage_resetFor (n : Nat) {s u : State} (hn : u.resets.length = n) (hu : u.Sound) (h : ResetStage s u) :
    ResetStage s (u.resetFor n) := by
  induction n generalizing u with
  | zero => exact h
  | succ n ih =>
    have hne : u.resets ≠ [] := List.ne_nil_of_length_eq_add_one hn
    obtain ⟨b, v, hb, hv, heq⟩ := resetNext_eq hne
    have hv' : v.resets = u.resets := by rw [hv]
    have hready : b ∈ v.readyResets := by
      rw [hv]
      exact hb
    have hvs : v.Sound := Sound.of_tables hu (by rw [hv])
    have hdone : ((v.resetBlock b).doneReset b).Sound := Sound.of_tables (resetBlock_sound hvs) rfl
    have hlen : u.resetNext.resets.length = n := by
      obtain ⟨c, hc, herase⟩ := (resetNext_kept hne).2
      rw [herase, List.length_erase_of_mem hc, hn, Nat.add_sub_cancel]
    have hnext : u.resetNext.Sound := by
      rw [heq]
      exact Sound.of_tables hdone (settle_same _ hdone).tables
    refine ih hlen hnext ?_
    rw [heq]
    exact ((h.draw hv).block hready).settle hdone

theorem finishResets_stage {s : State} (hs : s.Sound) (h : s.resets = ResetBlock.all) : ResetStage s s.finishResets :=
  resetStage_resetFor _ rfl hs (resetStage_begin h)

/-! ## The pieces at the end -/

/-- What all the resets leave, whatever their order (R154). -/
theorem finishResets_eq {s : State} (hs : s.Sound) (h : s.resets = ResetBlock.all) :
    Elsewhere s.finishResets (s.afterResets fun _ => true) := by
  have hstage := (finishResets_stage hs h).rest
  rw [finishResets_resets] at hstage
  have hdone : (fun b : ResetBlock => decide (b ∉ ([] : List ResetBlock))) = fun _ => true := by
    funext b
    simp
  rwa [hdone] at hstage

/-! ## The obligation -/

theorem find?_finRange_eq {n : Nat} {p : Fin n → Bool} {k : Fin n} (hk : p k = true) (hlow : ∀ j < k, p j = false) :
    (List.finRange n).find? p = some k := by
  have hsome : ((List.finRange n).find? p).isSome = true := List.find?_isSome.mpr ⟨k, List.mem_finRange k, hk⟩
  obtain ⟨j, hj⟩ := Option.isSome_iff_exists.mp hsome
  have hle := find?_finRange_le hj hk
  have hpj : p j = true := List.find?_some hj
  rcases Fin.lt_or_eq_of_le hle with hlt | rfl
  · rw [hlow j hlt] at hpj
    cases hpj
  · exact hj

theorem exec_softReset {s : State} {q : Request} (hq : s.Presents q .softReset) :
    exec .softReset s = .next (s.takeSoftReset q) := by
  unfold exec execSoftReset
  rw [hq.done, hq.takeable]
  dsimp only
  rw [if_pos hq.asks]

theorem exec_softReset_next {s : State} (h : s.resets ≠ []) : exec .softReset s = .next s.resetNext := by
  obtain ⟨b, l, hl⟩ := List.exists_cons_of_ne_nil h
  unfold exec execSoftReset
  rw [hl]

theorem takeSoftReset_refused {s : State} {q : Request} {g : GroupIx} (hs : s.Sound)
    (hg : s.validNotDisarmed = some g) :
    s.takeSoftReset q = ((Answer.refuse s.popRequest .notDisarmed [natByte g]).reply q).settle := by
  have hpop : s.popRequest.Sound := Sound.of_tables hs rfl
  unfold State.takeSoftReset
  rw [readGroups_sound .permit hpop]
  dsimp only
  rw [show s.popRequest.validNotDisarmed = some g from hg]

theorem takeSoftReset_accepted {s : State} {q : Request} (hs : s.Sound) (hg : s.validNotDisarmed = none) :
    s.takeSoftReset q = ((Answer.ok s.popRequest []).reply q).beginReset.settle := by
  have hpop : s.popRequest.Sound := Sound.of_tables hs rfl
  unfold State.takeSoftReset
  rw [readGroups_sound .permit hpop]
  dsimp only
  rw [show s.popRequest.validNotDisarmed = none from hg]

theorem validNotDisarmed_first {s : State} {g : GroupIx} (hv : s.tables.groups[g].held.valid = true)
    (hd : s.permitState g ≠ .disarmed)
    (hlow : ∀ h : GroupIx, h < g → s.tables.groups[h].held.valid = true → s.permitState h = .disarmed) :
    s.validNotDisarmed = some g := by
  refine find?_finRange_eq (Bool.and_eq_true_iff.mpr ⟨hv, bne_iff_ne.mpr hd⟩) fun h hh => ?_
  rw [Bool.and_eq_false_iff]
  by_cases hvh : s.tables.groups[h].held.valid = true
  · exact .inr (bne_eq_false_iff_eq.mpr (hlow h hh hvh))
  · exact .inl (Bool.eq_false_iff.mpr hvh)

theorem validNotDisarmed_none {s : State}
    (h : ∀ g : GroupIx, s.tables.groups[g].held.valid = true → s.permitState g = .disarmed) :
    s.validNotDisarmed = none := by
  rw [← Option.not_isSome_iff_eq_none, validNotDisarmed_isSome]
  rintro ⟨g, hv, hd⟩
  exact hd (h g hv)

theorem waits_of_ready {s : State} {b c : ResetBlock} (h : b ∈ s.readyResets) (hc : c ∈ b.waitsFor) : c ∉ s.resets :=
  ((mem_readyResets s b).mp h).2 c hc

/-- Settles O52: the invariant ResetStage carries the parts done in any order to the end. -/
theorem softResetKeepsWrittenContents : Obligations.SoftResetKeepsWrittenContents := by
  refine ⟨fun s q hq hs => ⟨_, exec_softReset hq, fun g hv hd hlow => ?_, fun hall => ?_⟩, fun s hr => ?_,
    fun s => ⟨rfl, rfl, rfl, rfl, rfl, rfl, rfl, rfl, fun _ => rfl, rfl, rfl, rfl⟩, fun s t hs hr ht => ?_⟩
  · rw [takeSoftReset_refused hs (validNotDisarmed_first hv hd hlow)]
    exact answered_reply hq.asks nofun _
  · obtain ⟨code, hcode⟩ := code_of_demand hq.asks nofun
    refine ⟨code, _, hcode, rfl, ?_⟩
    rw [takeSoftReset_accepted hs (validNotDisarmed_none hall)]
    simp only [Answer.reply, State.replyCode, hcode]
    rfl
  · obtain ⟨b, v, hb, hv, heq⟩ := resetNext_eq hr
    refine ⟨b, v, ((mem_readyResets s b).mp hb).1, ?_, hv, ?_, ?_, ?_, ?_⟩
    · rw [exec_softReset_next hr, heq]
    · refine (congrArg (List.erase · b) (resetBlock_kept b v).2).trans ?_
      rw [hv]
    · rintro rfl
      exact waits_of_ready hb (List.mem_singleton.mpr rfl)
    · rintro rfl
      exact waits_of_ready hb (List.mem_singleton.mpr rfl)
    · rintro rfl c hc
      by_contra hne
      exact trip_waits hb hne hc
  · have hstage := finishResets_stage hs hr
    have hend := finishResets_eq hs hr
    have hleft := finishResets_resets s
    rw [← ht] at hstage hend hleft
    have hnone : ∀ b, b ∉ t.resets := fun b => by
      rw [hleft]
      exact List.not_mem_nil
    obtain ⟨l, hflight, hl⟩ := hstage.lines (hnone _)
    have hports : ∀ sg : SegIx, t.segPorts[sg] = ⟨{ s.segPorts[sg].port with bad := 0 }, 0⟩ := fun sg => by
      rw [hend]
      exact Vector.getElem_ofFn sg.isLt
    have haxes : ∀ a : AxisIx, t.axisRec[a] = AxisRecord.reset := fun a => by
      rw [hend]
      exact map_get _ _ a
    refine ⟨by rw [hend]; rfl, fun a => ⟨haxes a, ?_⟩, fun p => ?_, fun g => ⟨?_, ?_, ?_⟩, fun z => ?_,
      fun sg => ⟨hstage.egress.idle (hnone _) sg, hstage.egress.phase sg, hstage.egress.setpoints (hnone _) sg,
        hstage.egress.slot (hnone _) sg, hstage.egress.stopSet (hnone _) sg, hports sg,
        fun hb => ⟨hstage.egress.busy sg hb, hstage.egress.beacon (hnone _) sg hb⟩⟩,
      by rw [hend]; rfl, by rw [hend]; rfl, by rw [hend]; rfl, by rw [hend]; rfl, by rw [hend]; rfl, by rw [hend]; rfl,
      by rw [hend]; rfl, by rw [hend]; rfl, hleft, by rw [hend]; rfl, l, hflight, hl⟩
    all_goals
      rw [hend]
      exact replicate_get _ _

end Sys2Proof.Machine
end

section
/-! PROOF. The laws at pin reset (O4). -/

namespace Sys2Proof.Machine

/-! ## No group is armed, and nothing is queued -/

theorem reset_permitState (g : GroupIx) : State.reset.permitState g = .disarmed :=
  congrArg Permit.state (replicate_get Permit.reset g)

theorem reset_setpoints (sg : SegIx) : State.reset.egress.setpoints[sg] = [] := replicate_get [] sg

theorem reset_forward (sg : SegIx) : State.reset.cl.forward[sg] = [] := replicate_get [] sg

theorem reset_armedLaw : ArmedLaw State.reset := fun g h => by
  rw [reset_permitState g] at h
  simp at h

theorem reset_lapseBoundLaw : LapseBoundLaw State.reset := fun g => by
  rw [reset_permitState g]
  exact ⟨nofun, nofun⟩

theorem reset_positionLaw : PositionLaw State.reset := fun sg q hq => by
  rw [reset_setpoints sg] at hq
  cases hq

theorem reset_queuedLaw : QueuedLaw State.reset := fun sg => by
  rw [reset_setpoints sg, reset_forward sg]
  exact ⟨nofun, nofun⟩

/-- Settles O4. -/
theorem lawsHoldAtReset : Obligations.LawsHoldAtReset := by
  exact ⟨reset_sound, brakeLaw_of_reset rfl rfl, lapseLaw_partLaw.reset, reset_lapseBoundLaw, timerLaw_partLaw.reset,
    scheduleLaw_partLaw.reset, queueLaw_partLaw.reset, oneEachLaw_partLaw.reset, reset_queuedLaw,
    stationLaw_writtenLaw.reset, indexLaw_writtenLaw.reset, rangeLaw_writtenLaw.reset, axisRangeLaw_writtenLaw.reset,
    reset_positionLaw, reset_armedLaw⟩

end Sys2Proof.Machine
end

section
/-! SUPPORT. Receding: no group is armed anew, no entry joins a queue, and no entry of the tables changes. Nearly every
event recedes while no record shows an error; the laws of armed groups and of queued motion are kept by receding. -/

namespace Sys2Proof.Machine

/-! ## The queues shrink -/

/-- The queues of setpoints and of samples to forward have only lost entries. -/
def Shrinks (s t : State) : Prop :=
  (∀ sg : SegIx, t.egress.setpoints[sg].Sublist s.egress.setpoints[sg]) ∧
    ∀ sg : SegIx, t.cl.forward[sg].Sublist s.cl.forward[sg]

theorem Shrinks.setpoints {s t : State} (h : Shrinks s t) (sg : SegIx) :
    t.egress.setpoints[sg].Sublist s.egress.setpoints[sg] := h.1 sg

theorem Shrinks.forward {s t : State} (h : Shrinks s t) (sg : SegIx) : t.cl.forward[sg].Sublist s.cl.forward[sg] := h.2 sg

theorem Shrinks.refl (s : State) : Shrinks s s := ⟨fun _ => .refl _, fun _ => .refl _⟩

theorem Shrinks.trans {s t u : State} (h : Shrinks s t) (k : Shrinks t u) : Shrinks s u :=
  ⟨fun sg => (k.setpoints sg).trans (h.setpoints sg), fun sg => (k.forward sg).trans (h.forward sg)⟩

theorem Shrinks.calmer {s t : State} {c : ClSide} (h : Shrinks s t) (hc : t.cl.Calmer c) :
    Shrinks s { t with cl := c } :=
  ⟨h.setpoints, fun sg => (hc.forward sg).trans (h.forward sg)⟩

theorem Shrinks.fewer {s t : State} {v : Vector (List SetpointEntry) 4} (h : Shrinks s t)
    (hv : ∀ sg : SegIx, v[sg].Sublist t.egress.setpoints[sg]) :
    Shrinks s { t with egress := { t.egress with setpoints := v } } :=
  ⟨fun sg => (hv sg).trans (h.setpoints sg), h.forward⟩

theorem shrinks_tripClosed (s₀ : State) : TripClosed (Shrinks s₀) where
  post := fun b s h => h.calmer (ClSide.calmer_post _ b s.cl)
  corrected := fun _ _ _ h => h
  poisoned := fun _ _ _ h => h
  close := fun sg s h => by
    rw [closeCheck_eq]
    exact h
  drop := fun a s h => (h.fewer (map_filter_sublist s.egress.setpoints fun q => q.axis != a)).calmer
    (ClSide.calmer_dropAxis s.cl a)
  stop := fun _ _ _ h => h
  purge := fun _ s h => h.fewer (map_filter_sublist s.egress.setpoints _)
  creepEnd := fun _ _ _ _ _ h => h
  record := fun _ _ _ _ h => h
  send := fun _ _ h => h
  toTripped := fun _ _ _ h => h
  further := fun _ _ _ h => h
  draw := fun _ h => h

theorem shrinks_egressClosed (s₀ : State) : EgressClosed (Shrinks s₀) where
  toTripClosed := shrinks_tripClosed s₀
  transmit := fun _ _ _ h => h
  unstop := fun _ _ _ h => h
  unbeacon := fun _ _ h => h
  dequeue := fun _ _ h => h.fewer (upd_sublist (List.tail_sublist _))
  sendCheck := sendCheck_keeps (shrinks_tripClosed s₀) (fun _ _ _ h => h) (fun _ _ h => h) (fun _ _ h => h)

theorem Shrinks.trip (r : TripRequest) (s : State) : Shrinks s (s.trip r) :=
  (shrinks_tripClosed s).trip r s (Shrinks.refl s)

theorem Shrinks.settle (s : State) : Shrinks s s.settle := (shrinks_egressClosed s).settle s (Shrinks.refl s)

/-! ## Receding -/

/-- PRIMED or LIVE: setpoints in mode POSITION and the drives' brakes wait on it. -/
def State.armed (s : State) (g : GroupIx) : Prop := s.permitState g = .primed ∨ s.permitState g = .live

/-- The entries of the four tables and the derived index are the same. -/
structure SameEntries (t t' : TableStore) : Prop where
  axes : t'.axes = t.axes
  groups : t'.groups = t.groups
  pairs : t'.pairs = t.pairs
  extents : t'.extents = t.extents
  index : t'.index = t.index

theorem SameEntries.refl (t : TableStore) : SameEntries t t := ⟨rfl, rfl, rfl, rfl, rfl⟩

theorem SameEntries.of_eq {t t' : TableStore} (h : t' = t) : SameEntries t t' := h ▸ SameEntries.refl t

theorem SameEntries.trans {t u v : TableStore} (h : SameEntries t u) (k : SameEntries u v) : SameEntries t v :=
  ⟨k.axes.trans h.axes, k.groups.trans h.groups, k.pairs.trans h.pairs, k.extents.trans h.extents,
    k.index.trans h.index⟩

/-- The state stays, and a lapse counter that runs runs down at most. -/
structure PermitStays (p q : Permit) : Prop where
  state : q.state = p.state
  lapse : 1 ≤ p.lapse.toNat → 1 ≤ q.lapse.toNat ∧ q.lapse.toNat ≤ p.lapse.toNat

theorem PermitStays.refl (p : Permit) : PermitStays p p := ⟨rfl, fun h => ⟨h, Nat.le_refl _⟩⟩

theorem PermitStays.of_eq {p q : Permit} (hs : q.state = p.state) (hl : q.lapse = p.lapse) : PermitStays p q :=
  ⟨hs, fun h => by rw [hl]; exact ⟨h, Nat.le_refl _⟩⟩

theorem PermitStays.trans {p q r : Permit} (h : PermitStays p q) (k : PermitStays q r) : PermitStays p r where
  state := k.state.trans h.state
  lapse := fun hp => by
    obtain ⟨h1, h2⟩ := h.lapse hp
    obtain ⟨h3, h4⟩ := k.lapse h1
    exact ⟨h3, h4.trans h2⟩

/-- No setpoint in mode POSITION waits for an axis of the group. -/
def State.NoMotion (s : State) (g : GroupIx) : Prop :=
  ∀ sg : SegIx, ∀ q ∈ s.egress.setpoints[sg], q.mode = .position → s.groupOf q.axis ≠ some g

/-- The flags that arming tests stay, or improve. -/
structure RecordStays (r r' : AxisRecord) : Prop where
  checked : r.checked = true → r'.checked = true
  lost : r.lost = false → r'.lost = false

theorem RecordStays.refl (r : AxisRecord) : RecordStays r r := ⟨id, id⟩

theorem RecordStays.trans {r r' r'' : AxisRecord} (h : RecordStays r r') (k : RecordStays r' r'') : RecordStays r r'' :=
  ⟨k.checked ∘ h.checked, k.lost ∘ h.lost⟩

/-- No group is armed anew or longer, a group that stops has no motion queued, the flags of an armed group's axes stay,
and the queues shrink. -/
structure Recedes (s t : State) : Prop where
  queues : Shrinks s t
  entries : SameEntries s.tables t.tables
  zones : t.zones = s.zones
  resets : s.resets = [] → t.resets = []
  permit : ∀ g : GroupIx, PermitStays s.permits[g] t.permits[g] ∨
    ¬ t.armed g ∧ (s.permitState g = .live → t.NoMotion g)
  record : ∀ (a : AxisIx) (g : GroupIx), s.groupOf a = some g → t.armed g → RecordStays s.axisRec[a] t.axisRec[a]

theorem SameEntries.groupOf {s t : State} (h : SameEntries s.tables t.tables) (a : AxisIx) :
    t.groupOf a = s.groupOf a := by
  unfold State.groupOf
  rw [h.index]

theorem State.armed.of_state {s t : State} {g : GroupIx} (h : t.armed g) (hs : t.permitState g = s.permitState g) :
    s.armed g := by
  unfold State.armed
  rw [← hs]
  exact h

theorem Recedes.stays {s t : State} (h : Recedes s t) {g : GroupIx} (ht : t.armed g) :
    PermitStays s.permits[g] t.permits[g] := by
  rcases h.permit g with hp | ⟨hno, -⟩
  · exact hp
  · exact absurd ht hno

theorem Recedes.armed {s t : State} (h : Recedes s t) {g : GroupIx} (ht : t.armed g) : s.armed g :=
  ht.of_state (h.stays ht).state

theorem Recedes.noMotion {s t : State} (h : Recedes s t) {g : GroupIx} (hs : s.NoMotion g) : t.NoMotion g :=
  fun sg q hq hm => by
    rw [h.entries.groupOf]
    exact hs sg q ((h.queues.setpoints sg).subset hq) hm

theorem Recedes.refl (s : State) : Recedes s s where
  queues := Shrinks.refl s
  entries := SameEntries.refl _
  zones := rfl
  resets := id
  permit := fun _ => .inl (PermitStays.refl _)
  record := fun _ _ _ _ => RecordStays.refl _

theorem Recedes.trans {s t u : State} (h : Recedes s t) (k : Recedes t u) : Recedes s u where
  queues := h.queues.trans k.queues
  entries := h.entries.trans k.entries
  zones := k.zones.trans h.zones
  resets := k.resets ∘ h.resets
  permit := fun g => by
    rcases k.permit g with hk | ⟨hno, hmotion⟩
    · rcases h.permit g with hh | ⟨hno, hmotion⟩
      · exact .inl (hh.trans hk)
      · exact .inr ⟨fun hu => hno (hu.of_state hk.state), fun hl => k.noMotion (hmotion hl)⟩
    · rcases h.permit g with hh | ⟨-, hstop⟩
      · exact .inr ⟨hno, fun hl => hmotion (hh.state.trans hl)⟩
      · exact .inr ⟨hno, fun hl => k.noMotion (hstop hl)⟩
  record := fun a g hg hu => (h.record a g hg (k.armed hu)).trans
    (k.record a g ((h.entries.groupOf a).trans hg) hu)

/-! ## What recedes -/

/-- The permits, the axis records and the tables' entries stay. -/
theorem Recedes.of_same {s t : State} (hq : Shrinks s t) (he : SameEntries s.tables t.tables)
    (hp : t.permits = s.permits) (ha : t.axisRec = s.axisRec) (hz : t.zones = s.zones) (hr : t.resets = s.resets) :
    Recedes s t where
  queues := hq
  entries := he
  zones := hz
  resets := fun h => hr.trans h
  permit := fun _ => by rw [hp]; exact .inl (PermitStays.refl _)
  record := fun _ _ _ _ => by rw [ha]; exact RecordStays.refl _

/-- What receding speaks of, but for the queues of samples to forward. -/
def State.motion (s : State) : Vector (List SetpointEntry) 4 × TableStore × Vector Permit 8 × Vector AxisRecord 64 ×
    Vector (Option GroupIx) 16 × List ResetBlock :=
  (s.egress.setpoints, s.tables, s.permits, s.axisRec, s.zones, s.resets)

/-- A change that the laws of motion speak of in the queues of samples to forward alone. -/
theorem Recedes.of_forward {s t : State} (hf : ∀ sg : SegIx, t.cl.forward[sg].Sublist s.cl.forward[sg])
    (h : t.motion = s.motion) : Recedes s t := by
  simp only [State.motion, Prod.mk.injEq] at h
  obtain ⟨hs, ht, hp, ha, hz, hr⟩ := h
  exact Recedes.of_same ⟨fun sg => by rw [hs], hf⟩ (SameEntries.of_eq ht) hp ha hz hr

/-- A change that no law of motion speaks of. -/
theorem Recedes.of_eq {s t : State} (h : t.motion = s.motion) (hf : t.cl.forward = s.cl.forward) : Recedes s t :=
  Recedes.of_forward (fun sg => by rw [hf]) h

theorem Recedes.of_quiet {s t : State} (hq : Quiet s t) (hsh : Shrinks s t) (ht : t.tables = s.tables)
    (hp : t.permits = s.permits) : Recedes s t :=
  Recedes.of_same hsh (SameEntries.of_eq ht) hp hq.axisRec hq.zones hq.resets

theorem recedes_calmer {s : State} {c : ClSide} (h : s.cl.Calmer c) : Recedes s { s with cl := c } :=
  Recedes.of_same ((Shrinks.refl s).calmer h) (SameEntries.refl _) rfl rfl rfl rfl

theorem recedes_post (b : ReportBody) (s : State) : Recedes s (s.post b) := recedes_calmer (ClSide.calmer_post _ b s.cl)

theorem recedes_settle {s : State} (hs : s.Sound) : Recedes s s.settle :=
  Recedes.of_quiet (Quiet.settle s) (Shrinks.settle s) (settle_same s hs).tables (by rw [(settle_same s hs).1])

theorem recedes_axis (a : AxisIx) {f : AxisRecord → AxisRecord} {s : State}
    (hf : RecordStays s.axisRec[a] (f s.axisRec[a])) : Recedes s (s.modAxis a f) where
  queues := Shrinks.refl s
  entries := SameEntries.refl _
  zones := rfl
  resets := id
  permit := fun _ => .inl (PermitStays.refl _)
  record := fun b _ _ _ => by
    rw [State.modAxis_axisRec, upd_get]
    split
    · next hab => subst hab; exact hf
    · exact RecordStays.refl _

theorem recedes_permit (g : GroupIx) {f : Permit → Permit} {s : State}
    (hf : PermitStays s.permits[g] (f s.permits[g])) : Recedes s (s.modPermit g f) where
  queues := Shrinks.refl s
  entries := SameEntries.refl _
  zones := rfl
  resets := id
  permit := fun k => by
    rw [State.modPermit_permits, upd_get]
    split
    · next hgk => subst hgk; exact .inl hf
    · exact .inl (PermitStays.refl _)
  record := fun _ _ _ _ => RecordStays.refl _

/-- Axes of the groups that are not armed in the end may have lost their flags on the way. -/
theorem Recedes.of_records {s w t : State} {v : Vector AxisRecord 64} (hw : w = { s with axisRec := v })
    (h : Recedes w t)
    (hv : ∀ (a : AxisIx) (g : GroupIx), s.groupOf a = some g → t.armed g → RecordStays s.axisRec[a] v[a]) :
    Recedes s t := by
  subst hw
  exact {
    queues := h.queues
    entries := h.entries
    zones := h.zones
    resets := h.resets
    permit := h.permit
    record := fun a g hg ht => (hv a g hg ht).trans (h.record a g hg ht) }

/-! ## A trip request -/

theorem afterRequest_unarmed (r : TripRequest) (p : Permit) :
    (p.afterRequest r).state ≠ .primed ∧ (p.afterRequest r).state ≠ .live := by
  unfold Permit.afterRequest
  cases hp : p.state with
  | disarmed =>
    dsimp only
    split
    · exact ⟨nofun, nofun⟩
    · rw [hp]
      exact ⟨nofun, nofun⟩
  | primed => exact ⟨nofun, nofun⟩
  | live => exact ⟨nofun, nofun⟩
  | tripped => exact ⟨nofun, nofun⟩

theorem trip_permits_get {s : State} (hs : s.Sound) (r : TripRequest) (g : GroupIx) : (s.trip r).permits[g] =
    if r.group = g then s.permits[g].afterRequest r else s.permits[g] := by
  rw [(trip_sound hs r).1, upd_get]
  exact if_ctx_congr Iff.rfl (fun h => by rw [h]) fun _ => rfl

theorem trip_unarmed {s : State} (hs : s.Sound) (r : TripRequest) : ¬ (s.trip r).armed r.group := by
  unfold State.armed State.permitState
  rw [trip_permits_get hs, if_pos rfl, not_or]
  exact afterRequest_unarmed r _

theorem trip_noMotion {s : State} (hs : s.Sound) {r : TripRequest} (h : s.permitState r.group = .live) :
    (s.trip r).NoMotion r.group := by
  have htrip := tripStopsTheGroup s r hs (.inr (.inl h))
  obtain ⟨-, -, -, hset, -⟩ := htrip
  intro sg q hq hm
  rw [hset sg, List.mem_filter] at hq
  obtain ⟨-, hkeep⟩ := hq
  rw [(SameEntries.of_eq (trip_sound hs r).2).groupOf]
  intro hg
  simp [hm, hg] at hkeep

theorem recedes_trip (r : TripRequest) {s : State} (hs : s.Sound) : Recedes s (s.trip r) where
  queues := Shrinks.trip r s
  entries := SameEntries.of_eq (trip_sound hs r).2
  zones := (Quiet.trip r s).zones
  resets := fun h => (Quiet.trip r s).resets.trans h
  permit := fun g => by
    by_cases hg : r.group = g
    · subst hg
      exact .inr ⟨trip_unarmed hs r, trip_noMotion hs⟩
    · rw [trip_permits_get hs, if_neg hg]
      exact .inl (PermitStays.refl _)
  record := fun a _ _ _ => by rw [(Quiet.trip r s).axisRec]; exact RecordStays.refl _

end Sys2Proof.Machine
end

section
/-! SUPPORT. What the blocks do at a cycle start recedes, and so do link checks, creep runs and ports. -/

namespace Sys2Proof.Machine

/-! ## Sound states recede into sound states -/

theorem Recedes.sound {s t : State} (h : Recedes s t) (hs : s.Sound) : t.Sound := by
  intro e
  have heq : t.tables.outcome e = s.tables.outcome e := by
    cases e with
    | axis a => exact congrArg (fun v : Vector (Stored AxisFields) 64 => v[a].outcome) h.entries.axes
    | group g => exact congrArg (fun v : Vector (Stored GroupFields) 8 => v[g].outcome) h.entries.groups
    | pair p => exact congrArg (fun v : Vector (Stored PairFields) 32 => v[p].outcome) h.entries.pairs
    | extent x => exact congrArg (fun v : Vector (Stored ExtentFields) 128 => v[x].outcome) h.entries.extents
  rw [heq]
  exact hs e

theorem recedes_foldl {α : Type} {f : State → α → State} (hf : ∀ s a, s.Sound → Recedes s (f s a)) :
    ∀ (l : List α) (s : State), s.Sound → Recedes s (l.foldl f s) := by
  intro l
  induction l with
  | nil => exact fun s _ => Recedes.refl s
  | cons a l ih => exact fun s hs => (hf s a hs).trans (ih _ ((hf s a hs).sound hs))

theorem Recedes.of_calmer {s t : State} (hc : s.cl.Calmer t.cl) (h : t.motion = s.motion) : Recedes s t :=
  Recedes.of_forward hc.forward h

theorem calmer_ite_post {c : ClSide} {ctx : PostContext} {b : ReportBody} (p : Prop) [Decidable p] :
    c.Calmer (if p then c.post ctx b else c) := by
  split
  · exact ClSide.calmer_post ctx b c
  · exact ClSide.Calmer.refl c

/-- One group's permit changes to one that is not armed, with no motion left if it was LIVE. -/
theorem Recedes.of_permits {s w t : State} {v : Vector Permit 8} {g : GroupIx} (hw : w = { s with permits := v })
    (h : Recedes w t) (hv : ∀ k : GroupIx, k ≠ g → v[k] = s.permits[k]) (hg : ¬ t.armed g)
    (hm : s.permitState g = .live → t.NoMotion g) : Recedes s t := by
  subst hw
  exact {
    queues := h.queues
    entries := h.entries
    zones := h.zones
    resets := h.resets
    permit := fun k => by
      by_cases hk : k = g
      · subst hk
        exact .inr ⟨hg, hm⟩
      · have hkeep := h.permit k
        have hstate : State.permitState { s with permits := v } k = s.permitState k := by
          unfold State.permitState
          dsimp only
          rw [hv k hk]
        rw [hstate] at hkeep
        dsimp only at hkeep
        rwa [hv k hk] at hkeep
    record := h.record }

/-- A change to DISARMED, with no motion left if the group was LIVE. -/
theorem recedes_toDisarmed {g : GroupIx} {f : Permit → Permit} {brk : Vector Bool 8} {c : ClSide} {s : State}
    (hf : (f s.permits[g]).state = .disarmed) (hc : s.cl.Calmer c) (hm : s.permitState g = .live → s.NoMotion g) :
    Recedes s { s with permits := upd s.permits g f, brk := brk, cl := c } := by
  refine Recedes.of_permits (g := g) (w := { s with permits := upd s.permits g f }) rfl (Recedes.of_calmer hc rfl)
    (fun k hk => upd_get_ne _ hk.symm _) ?_ hm
  unfold State.armed State.permitState
  dsimp only
  rw [upd_get_same, hf]
  exact fun h => h.elim nofun nofun

theorem recedes_disarm {g : GroupIx} (why : PermitReason) {s : State}
    (hm : s.permitState g = .live → s.NoMotion g) : Recedes s (s.changePermit g .disarmed 0 why) := by
  rw [changePermit_eq]
  exact recedes_toDisarmed rfl (ClSide.calmer_post _ _ _) hm

/-! ## Trips, one after the other -/

theorem trips_unarmed {mk : GroupIx → TripRequest} (hmk : ∀ g, (mk g).group = g) {g : GroupIx} :
    ∀ (l : List GroupIx) (s : State), s.Sound → g ∈ l → ¬ (l.foldl (fun s g => s.trip (mk g)) s).armed g := by
  intro l
  induction l with
  | nil => exact fun _ _ h => absurd h List.not_mem_nil
  | cons k l ih =>
    intro s hs hg
    have htrip := recedes_trip (mk k) hs
    rw [List.foldl_cons]
    rcases List.mem_cons.mp hg with rfl | hgl
    · intro harmed
      have hlater := recedes_foldl (fun s g => recedes_trip (mk g) (s := s)) l _ (htrip.sound hs)
      have hno := trip_unarmed hs (mk g)
      rw [hmk g] at hno
      exact hno (hlater.armed harmed)
    · exact ih _ (htrip.sound hs) hgl

/-! ## Link checks and creep runs -/

theorem recedes_closeCheck (sg : SegIx) (s : State) : Recedes s (s.closeCheck sg) := by
  rw [closeCheck_eq]
  exact Recedes.of_eq rfl rfl

theorem recedes_endCheck (sg : SegIx) (o : CheckOutcome) (x : Option (Word16 × Mounting)) (s : State) :
    Recedes s (s.endCheck sg o x) := (recedes_closeCheck sg s).trans (recedes_post _ _)

theorem recedes_finishCreep (g : GroupIx) {s : State} (hs : s.Sound) : Recedes s (s.finishCreep g) := by
  rw [finishCreep_sound g hs]
  exact Recedes.of_calmer (ClSide.calmer_post _ _ _) rfl

theorem recedes_abortCreep (g : GroupIx) (why : CreepAbort) {s : State} (hs : s.Sound) :
    Recedes s (s.abortCreep State.trip g why) := by
  by_cases hrun : s.creep[g].state = .running
  · rw [abortCreep_running hs hrun]
    exact Recedes.of_calmer (ClSide.calmer_post _ _ _) rfl
  · rw [abortCreep_idle hrun]
    exact Recedes.refl s

theorem recedes_checkTimeout (sg : SegIx) (s : State) : Recedes s (s.checkTimeout sg) := by
  by_cases hin : s.checks[sg].inFlight = true
  · by_cases hsent : s.checks[sg].sent = true
    · rw [checkTimeout_running hin hsent]
      exact Recedes.of_calmer (calmer_ite_post _) rfl
    · rw [checkTimeout_idle (.inr (Bool.eq_false_iff.mpr hsent))]
      exact Recedes.refl s
  · rw [checkTimeout_idle (.inl (Bool.eq_false_iff.mpr hin))]
    exact Recedes.refl s

theorem recedes_creepCycle (g : GroupIx) {s : State} (hs : s.Sound) : Recedes s (s.creepCycle g) := by
  by_cases hrun : s.creep[g].state = .running
  · rw [creepCycle_running hs hrun]
    exact Recedes.of_calmer (calmer_ite_post _) rfl
  · rw [creepCycle_idle hrun]
    exact Recedes.refl s

theorem recedes_checkCycle (s : State) (r : CheckRecord) (hs : s.Sound) : Recedes s (s.checkCycle r) := by
  cases r with
  | link sg => exact recedes_checkTimeout sg s
  | creep g => exact recedes_creepCycle g hs

/-! ## The sample monitor's close of the cycle -/

theorem axisRec_stays_of_ne {s : State} {v : Vector AxisRecord 64} {a b : AxisIx} {f : AxisRecord → AxisRecord}
    (hv : v = upd s.axisRec a f) (h : b ≠ a) : RecordStays s.axisRec[b] v[b] := by
  rw [hv, upd_get_ne _ h.symm]
  exact RecordStays.refl _

theorem recedes_becomeLost (a : AxisIx) {s : State} (hs : s.Sound) : Recedes s (s.becomeLost a) := by
  obtain ⟨v, hv⟩ : ∃ v : State, v = { s with
      axisRec := upd s.axisRec a (fun r => { r with lost := true })
      cl := s.cl.post s.postContext (.axisLost a (s.groupOf a) (s.axisRec[a].latest.map LatestSample.cycle)) } := ⟨_, rfl⟩
  have hw : Recedes { s with axisRec := upd s.axisRec a (fun r => { r with lost := true }) } v := by
    rw [hv]
    exact Recedes.of_calmer (ClSide.calmer_post _ _ _) rfl
  have hvs : v.Sound := hw.sound (Sound.of_tables hs rfl)
  rw [becomeLost_eq]
  dsimp only
  rw [← hv]
  split
  · next g hg =>
    have htrip := recedes_trip ⟨g, ⟨.axisLost, .axis a⟩, none⟩ hvs
    have habort := recedes_abortCreep g (.lost a) (htrip.sound hvs)
    refine Recedes.of_records rfl (hw.trans (htrip.trans habort)) fun b k hb hk => ?_
    by_cases hab : b = a
    · subst hab
      obtain rfl : g = k := Option.some.inj (hg.symm.trans hb)
      exact absurd (habort.armed hk) (trip_unarmed hvs ⟨g, ⟨.axisLost, .axis b⟩, none⟩)
    · exact axisRec_stays_of_ne rfl hab
  · next hg =>
    refine Recedes.of_records rfl hw fun b k hb _ => ?_
    refine axisRec_stays_of_ne rfl fun hab => ?_
    subst hab
    rw [hg] at hb
    cases hb

theorem recedes_closeAxis (s : State) (a : AxisIx) (hs : s.Sound) : Recedes s (s.closeAxis a) := by
  cases hvalid : s.tables.axes[a].held.valid with
  | false =>
    rw [closeAxis_invalid hs hvalid]
    exact Recedes.refl s
  | true =>
    cases harr : s.axisRec[a].arrived with
    | true =>
      rw [closeAxis_arrived hs hvalid harr]
      exact (recedes_axis a (f := fun r => { r with missCount := 0, lost := false, arrived := false })
        ⟨id, fun _ => rfl⟩).trans (Recedes.of_calmer (calmer_ite_post _) rfl)
    | false =>
      have hmiss : Recedes s (s.missed a) := recedes_axis a ⟨id, id⟩
      rw [closeAxis_missed hs hvalid harr]
      split
      · exact hmiss.trans (recedes_becomeLost a (hmiss.sound hs))
      · exact hmiss

/-! ## The permit unit's and the trip unit's cycle start -/

theorem satDec_stays {p : Permit} (h : satDec p.lapse ≠ 0) : PermitStays p { p with lapse := satDec p.lapse } := by
  refine ⟨rfl, fun _ => ⟨?_, ?_⟩⟩
  · exact Nat.one_le_iff_ne_zero.mpr fun h0 => h (BitVec.eq_of_toNat_eq h0)
  · dsimp only
    unfold satDec
    split
    · exact Nat.le_refl _
    · next hne =>
      have hpos : p.lapse.toNat ≠ 0 := fun h0 => hne (BitVec.eq_of_toNat_eq h0)
      bv_omega

theorem recedes_permitCycle (s : State) (g : GroupIx) (hs : s.Sound) : Recedes s (s.permitCycle g) := by
  cases hst : s.permitState g with
  | disarmed =>
    rw [permitCycle_disarmed hst]
    exact Recedes.refl s
  | tripped =>
    rw [permitCycle_tripped hst]
    exact recedes_permit g (PermitStays.of_eq rfl rfl)
  | primed =>
    rw [permitCycle_primed hst]
    split
    · rw [decrement_expirePrime hst]
      exact recedes_toDisarmed rfl (ClSide.calmer_post _ _ _) fun hl => absurd (hst.symm.trans hl) nofun
    · next hne => exact recedes_permit g (satDec_stays hne)
  | live =>
    rw [permitCycle_live hst]
    split
    · have hdec : (s.decrementLapse g).Sound := Sound.of_tables hs rfl
      refine Recedes.of_permits (g := g) (w := s.decrementLapse g) rfl
        (recedes_trip ⟨g, ⟨.lapsed, .none⟩, none⟩ hdec) (fun k hk => upd_get_ne _ hk.symm _)
        (trip_unarmed hdec ⟨g, ⟨.lapsed, .none⟩, none⟩) fun _ => ?_
      exact trip_noMotion hdec (r := ⟨g, ⟨.lapsed, .none⟩, none⟩) ((decrementLapse_state g s).trans hst)
    · next hne => exact recedes_permit g (satDec_stays hne)

theorem recedes_oweStop (s : State) (a : AxisIx) (hs : s.Sound) : Recedes s (s.oweStop State.trip a) := by
  have htouch : s.touchWith State.trip .trip (.axis a) = s := touchWith_clean _ _ _ s (hs _)
  unfold State.oweStop
  rw [htouch]
  dsimp only
  split
  · exact Recedes.of_eq rfl rfl
  · exact Recedes.refl s

theorem recedes_refillGroup (s : State) (g : GroupIx) (hs : s.Sound) : Recedes s (s.refillGroup g) := by
  by_cases ht : s.permitState g = .tripped
  · rw [refillGroup_tripped ht hs]
    exact recedes_foldl recedes_oweStop _ s hs
  · rw [refillGroup_other ht]
    exact Recedes.refl s

/-! ## The scrubber and the ports -/

theorem recedes_scrubVisits (n : Nat) (s : State) (hs : s.Sound) : Recedes s (State.scrubVisits n s) := by
  induction n generalizing s with
  | zero => exact Recedes.refl s
  | succ n ih =>
    have hvisit : Recedes s s.scrubVisit := by
      rw [scrubVisit_eq, touch_sound _ _ _ hs]
      exact Recedes.of_same (Shrinks.refl s) ⟨rfl, rfl, rfl, rfl, rfl⟩ rfl rfl rfl rfl
    exact hvisit.trans (ih _ (hvisit.sound hs))

theorem recedes_segmentLoss (sg : SegIx) {s : State} (hs : s.Sound) : Recedes s (s.segmentLoss sg) := by
  have hdrop : Recedes { s with axisRec := unchecked (s.axesOn sg) s.axisRec } (s.segmentDropped sg) := by
    refine Recedes.of_calmer ?_ rfl
    unfold State.segmentDropped
    exact (ClSide.calmer_post _ _ _).trans (calmer_ite_post _)
  have hds : (s.segmentDropped sg).Sound := hdrop.sound (Sound.of_tables hs rfl)
  rw [segmentLoss_eq]
  refine Recedes.of_records rfl (hdrop.trans (recedes_foldl (fun u g => recedes_trip _) _ _ hds)) fun a g ha hg => ?_
  rw [unchecked_get]
  split
  · next hon =>
    refine absurd hg (trips_unarmed (mk := fun g => ⟨g, ⟨.segmentDown, .port (.seg sg)⟩, none⟩) (fun _ => rfl) _ _ hds ?_)
    exact List.mem_filter.mpr ⟨List.mem_finRange g, List.any_eq_true.mpr ⟨a, hon, beq_iff_eq.mpr ha⟩⟩
  · exact RecordStays.refl _

theorem recedes_port (p : PortId) (f : Port → Port) (s : State) : Recedes s (s.modPort p f) := by
  cases p <;> exact Recedes.of_eq rfl rfl

theorem recedes_send (w : TripSender) (r : TripRequest) (s : State) : Recedes s (s.send w r) := Recedes.of_eq rfl rfl

theorem recedes_clLoss {s : State} (hs : s.Sound) : Recedes s s.clLoss := by
  have hpost : Recedes s ((s.modPort .cl fun q => { q with link := .down }).post
      (.portChange .cl .down (s.portOf .cl).silence)) := (recedes_port .cl _ s).trans (recedes_post _ _)
  exact hpost.trans (recedes_foldl (fun u g _ => recedes_send _ _ u) _ _ (hpost.sound hs))

theorem recedes_portCycle (p : PortId) {s : State} (hs : s.Sound) : Recedes s (s.portCycle p) := by
  cases hseen : (s.portOf p).seen with
  | true =>
    rw [portCycle_seen hseen]
    exact recedes_port p _ s
  | false =>
    have htick : Recedes s (s.portTicked p) := recedes_port p _ s
    rw [portCycle_unseen hseen]
    split
    · cases p with
      | seg sg => exact htick.trans (recedes_segmentLoss sg (htick.sound hs))
      | cl => exact htick.trans (recedes_clLoss (htick.sound hs))
    · exact htick

/-! ## The cycle start -/

theorem recedes_choose (sg : SegIx) {s : State} (hs : s.Sound) : Recedes s (s.choose sg) :=
  Recedes.of_quiet ((quiet_egressClosed s).choose sg s (Quiet.refl s)) ((shrinks_egressClosed s).choose sg s (Shrinks.refl s))
    (choose_same sg s hs).tables (by rw [(choose_same sg s hs).1])

theorem recedes_settleSegFor (n : Nat) (sg : SegIx) (s : State) (hs : s.Sound) :
    Recedes s (State.settleSegFor n sg s) := by
  induction n generalizing s with
  | zero => exact Recedes.refl s
  | succ n ih =>
    unfold State.settleSegFor
    split
    · have hchoose := recedes_choose sg hs
      exact hchoose.trans (ih _ (hchoose.sound hs))
    · exact Recedes.refl s

theorem recedes_cycleTask (o : CycleOrders) (s : State) (k : CycleTask) (hs : s.Sound) : Recedes s (s.cycleTask o k) := by
  cases k with
  | monitor => exact recedes_foldl recedes_closeAxis _ s hs
  | permit => exact recedes_foldl recedes_permitCycle _ s hs
  | trip => exact recedes_foldl recedes_refillGroup _ s hs
  | check => exact recedes_foldl recedes_checkCycle _ s hs
  | tables => exact recedes_scrubVisits _ s hs
  | port p => exact recedes_portCycle p hs
  | egress sg => exact recedes_settleSegFor _ sg s hs

theorem recedes_cycleEvent {s : State} (hs : s.Sound) : Recedes s s.cycleEvent := by
  have hbegin : Recedes s (State.advanceCycle { s with freeCount := s.freeCount + 5 }) := Recedes.of_eq rfl rfl
  have htasks := recedes_foldl (recedes_cycleTask s.cycleOrders) (permute s.cycleOrders.tasks CycleTask.all) _
    (hbegin.sound hs)
  have hall := hbegin.trans htasks
  exact hall.trans (recedes_settle (hall.sound hs))

theorem recedes_elapse (s : State) : Recedes s s.elapse := Recedes.of_eq rfl rfl

theorem recedes_advanceClock (s : State) : Recedes s s.advanceClock := Recedes.of_eq rfl rfl

end Sys2Proof.Machine
end

section
/-! SUPPORT. Everything a request's work can do to motion, said once: a property kept by receding and by the changes
below, each under the tests that it has passed, is kept by every request's work while no record shows an error. -/

namespace Sys2Proof.Machine

/-! ## What moves -/

/-- What arming has tested, entry by entry (R94). -/
structure State.MayArm (s : State) (g : GroupIx) : Prop where
  disarmed : s.permitState g = .disarmed
  idle : s.resets = []
  valid : s.tables.groups[g].held.valid = true
  clean : ∀ e ∈ EntryRef.group g :: s.belongings g, s.tables.isPoisoned e = false
  members : ∀ a ∈ s.memberList g, s.axisRec[a].checked = true ∧ s.axisRec[a].lost = false

/-- What the admission unit has tested of a setpoint in mode POSITION (R35 to R48). -/
structure State.MayMove (s : State) (e : SetpointEntry) : Prop where
  valid : s.tables.axes[e.axis].held.valid = true
  clean : s.tables.axes[e.axis].poisoned = false
  live : ∃ g, s.groupOf e.axis = some g ∧ s.permitState g = .live
  low : s.tables.axes[e.axis].held.softLow.toInt ≤ e.target.toInt
  high : e.target.toInt ≤ s.tables.axes[e.axis].held.softHigh.toInt
  owned : ∀ x : ExtentIx, s.liveExtent x = true → s.extentAxis x = some e.axis →
    travelOverlaps e.reference.toInt e.target.toInt s.tables.extents[x].held.low.toInt
      s.tables.extents[x].held.high.toInt = true →
    s.zoneOwnedBy s.tables.extents[x].held.zone (s.groupOf e.axis) = true

/-- The property is kept by receding and, while no record shows an error, by every change that arms a group, lets an
entry join a queue, or writes an entry. -/
structure MotionClosed (P : State → Prop) : Prop where
  sound : ∀ {s : State}, P s → s.Sound
  recedes : ∀ {s t : State}, P s → Recedes s t → P t
  arm : ∀ g s, P s → s.MayArm g → P (s.modPermit g fun p => { p with
    state := .primed, lapse := s.tables.groups[g].held.primeWindow, halfDone := false })
  run : ∀ g s, P s → s.permitState g = .primed → P (s.modPermit g fun p => { p with
    state := .live, lapse := s.tables.groups[g].held.serviceInterval, halfDone := false })
  service : ∀ g s, P s → s.permitState g = .live →
    P (s.modPermit g fun p => { p with lapse := s.tables.groups[g].held.serviceInterval, halfDone := false })
  storeAxis : ∀ a f s, P s → s.axisWriteOk a f → s.lockedGroup (s.groupOf a) = false → P (s.storeAxis a f)
  storeGroup : ∀ g f s, P s → s.groupWriteOk g f → s.permitState g = .disarmed → P (s.storeGroup g f)
  storePair : ∀ p f s, P s → P (s.storePair p f)
  storeExtent : ∀ (x : ExtentIx) (f : ExtentFields) s, P s → (f.valid = true → s.lockedAxis f.axis = false) →
    P (s.modTables fun t => { t with extents := t.extents.set x (.fresh f.stored) })
  claim : ∀ (z : ZoneIx) g s, P s → s.zones[z] = none → P { s with zones := s.zones.set z (some g) }
  release : ∀ (z : ZoneIx) g s, P s → s.zones[z] = some g → P { s with
    zones := s.zones.set z none
    egress := { s.egress with setpoints := s.egress.setpoints.map (List.filter fun e => !(s.travelsInto z g e)) } }
  enqueueRest : ∀ e s, P s → e.mode ≠ .position → s.tables.axes[e.axis].held.valid = true →
    s.tables.axes[e.axis].poisoned = false → P (s.enqueue e)
  enqueuePosition : ∀ e s, P s → s.MayMove e → P (s.enqueue e)
  forward : ∀ (sg : SegIx) (e : ForwardEntry) s, P s → s.tables.axes[e.axis].poisoned = false →
    s.tables.axes[e.axis].held.forward = true → segOfByte s.tables.axes[e.axis].held.segment = some sg →
    P { s with cl := { s.cl with forward := upd s.cl.forward sg (placeForward e) } }
  beginReset : ∀ s, P s → s.validNotDisarmed = none → P s.beginReset
  resetBlock : ∀ b s, P s → b ≠ .trip → s.resets ≠ [] → P (s.resetBlock b)
  pinReset : ∀ pins s, P s → P (s.pinReset pins)

section
variable {P : State → Prop} (h : MotionClosed P)
include h

theorem MotionClosed.trip (r : TripRequest) (s : State) (hs : P s) : P (s.trip r) :=
  h.recedes hs (recedes_trip r (h.sound hs))

theorem MotionClosed.post (b : ReportBody) (s : State) (hs : P s) : P (s.post b) := h.recedes hs (recedes_post b s)

theorem MotionClosed.settle (s : State) (hs : P s) : P s.settle := h.recedes hs (recedes_settle (h.sound hs))

/-- The report of a permit's change, and its brake line. -/
theorem MotionClosed.changePermit {g : GroupIx} {st : PermitState} {lapse : Word16} (why : PermitReason) {s : State}
    (hs : P (s.modPermit g fun p => { p with state := st, lapse := lapse, halfDone := false })) :
    P (s.changePermit g st lapse why) :=
  h.post _ _ (h.recedes hs (Recedes.of_eq rfl rfl))

/-! ## Keys -/

theorem MotionClosed.keySequence (g : GroupIx) (s : State) (hs : P s) : P (Machine.keySequence g s).state :=
  h.trip _ s hs

theorem MotionClosed.armChecked {g : GroupIx} {s : State} (hs : P s) (hd : s.permitState g = .disarmed)
    (hi : s.resets = []) (hv : s.tables.groups[g].held.valid = true)
    (hc : ∀ e ∈ EntryRef.group g :: s.belongings g, s.tables.isPoisoned e = false) :
    P (Machine.armChecked g s).state := by
  unfold Machine.armChecked
  dsimp only
  split
  · exact hs
  · next hchecked =>
    split
    · exact hs
    · next hlost =>
      split
      · exact hs
      · split
        · exact hs
        · split
          · exact hs
          · refine h.changePermit .armed (h.arm g s hs ⟨hd, hi, hv, hc, fun a ha => ⟨?_, ?_⟩⟩)
            · simpa using List.find?_eq_none.mp hchecked a ha
            · simpa using List.find?_eq_none.mp hlost a ha

theorem MotionClosed.armRequest {g : GroupIx} {s : State} (hs : P s) (hd : s.permitState g = .disarmed)
    (hi : s.resets = []) : P (Machine.arm g s).state := by
  rw [arming_sound g (h.sound hs)]
  split
  · exact hs
  · next hvalid =>
    split
    · exact hs
    · next hclean =>
      have hc : ∀ e ∈ EntryRef.group g :: s.belongings g, s.tables.isPoisoned e = false := fun e he =>
        Bool.eq_false_iff.mpr (List.find?_eq_none.mp hclean e he)
      refine h.armChecked hs hd hi ?_ hc
      by_contra hv
      exact hvalid ⟨Bool.eq_false_iff.mpr hv, hc _ List.mem_cons_self⟩

theorem MotionClosed.presentArm (g : GroupIx) (s : State) (hs : P s) (hi : s.resets = []) :
    P (Machine.presentArm g s).state := by
  cases hst : s.permitState g with
  | tripped =>
    rw [presentArm_tripped hst]
    exact hs
  | disarmed =>
    rw [presentArm_disarmed hst]
    exact h.armRequest hs hst hi
  | primed =>
    rw [presentArm_primed hst]
    exact hs
  | live =>
    cases hhalf : s.permits[g].halfDone with
    | true =>
      rw [presentArm_again hst hhalf]
      exact h.keySequence g s hs
    | false =>
      rw [presentArm_first hst hhalf]
      exact h.recedes hs (recedes_permit g (PermitStays.of_eq rfl rfl))

theorem MotionClosed.presentRun (g : GroupIx) (s : State) (hs : P s) : P (Machine.presentRun g s).state := by
  have htouch : s.touch .permit (.group g) = s := touch_sound _ _ _ (h.sound hs)
  cases hst : s.permitState g with
  | tripped =>
    rw [presentRun_tripped hst]
    exact hs
  | disarmed =>
    rw [presentRun_disarmed hst]
    exact hs
  | primed =>
    rw [presentRun_primed hst, htouch, if_pos hst]
    exact h.changePermit .run (h.run g s hs hst)
  | live =>
    cases hhalf : s.permits[g].halfDone with
    | true =>
      rw [presentRun_second hst hhalf, htouch, if_pos hst]
      exact h.service g s hs hst
    | false =>
      rw [presentRun_early hst hhalf]
      exact h.keySequence g s hs

theorem MotionClosed.presentOther (g : GroupIx) (s : State) (hs : P s) : P (Machine.presentOther g s).state := by
  cases hst : s.permitState g with
  | tripped =>
    rw [presentOther_tripped hst]
    exact hs
  | disarmed =>
    rw [presentOther_refused (.inl hst)]
    exact hs
  | primed =>
    rw [presentOther_refused (.inr hst)]
    exact hs
  | live =>
    rw [presentOther_live hst]
    exact h.keySequence g s hs

/-! ## PARK, FORCE_TRIP, CLEAR_TRIP -/

theorem MotionClosed.takeSampled (g : GroupIx) (s : State) (hs : P s) : P (s.takeSampled g) := by
  by_cases harmed : s.permitState g = .primed ∨ s.permitState g = .live
  · rw [takeSampled_armed harmed]
    exact keeps_foldl (P := P) _ (fun s r hs => h.trip r s hs) _ _ (h.recedes hs (Recedes.of_eq rfl rfl))
  · rw [takeSampled_unarmed (by
      cases hst : s.permitState g with
      | disarmed => exact .inl rfl
      | tripped => exact .inr rfl
      | primed => exact absurd (.inl hst) harmed
      | live => exact absurd (.inr hst) harmed)]
    exact hs

omit h in
theorem recedes_purgeGroup (g : GroupIx) (s : State) : Recedes s (s.purgeGroup g) :=
  Recedes.of_same ⟨fun sg => map_filter_sublist _ _ sg, fun _ => .refl _⟩ ⟨rfl, rfl, rfl, rfl, rfl⟩ rfl rfl rfl rfl

omit h in
theorem purgeGroup_noMotion (g : GroupIx) (s : State) : (s.purgeGroup g).NoMotion g := by
  intro sg q hq hm hg
  have hget : (s.purgeGroup g).egress.setpoints[sg] =
      s.egress.setpoints[sg].filter fun q => !(q.mode == .position && s.groupOf q.axis == some g) := map_get _ _ sg
  rw [hget, List.mem_filter] at hq
  obtain ⟨-, hkeep⟩ := hq
  have hg' : s.groupOf q.axis = some g := hg
  simp [hm, hg'] at hkeep

theorem MotionClosed.parkTaken (g : GroupIx) (s : State) (hs : P s) : P (Machine.parkTaken g s).state := by
  cases hst : s.permitState g with
  | disarmed =>
    rw [parkTaken_disarmed hst]
    exact hs
  | tripped =>
    rw [parkTaken_tripped hst]
    exact hs
  | primed =>
    rw [parkTaken_primed hst]
    exact h.recedes hs (recedes_disarm .parked fun hl => absurd (hst.symm.trans hl) nofun)
  | live =>
    rw [parkTaken_live hst (h.sound hs)]
    split
    · exact hs
    · exact h.recedes hs ((recedes_purgeGroup g s).trans (recedes_disarm .parked fun _ => purgeGroup_noMotion g s))

theorem MotionClosed.parkGroup (g : GroupIx) (s : State) (hs : P s) : P (Machine.parkGroup g s).state :=
  h.parkTaken g _ (h.takeSampled g s hs)

theorem MotionClosed.clearTripGroup (g : GroupIx) (s : State) (hs : P s) : P (Machine.clearTripGroup g s).state := by
  cases hst : s.permitState g with
  | disarmed =>
    rw [clearTripGroup_disarmed hst]
    exact hs
  | primed =>
    rw [clearTripGroup_armed (.inl hst)]
    exact hs
  | live =>
    rw [clearTripGroup_armed (.inr hst)]
    exact hs
  | tripped =>
    rw [clearTripGroup_tripped hst (h.sound hs)]
    split
    · exact hs
    · split
      · exact hs
      · split
        · exact hs
        · change P (s.clearAccepted g)
          rw [clearAccepted_sound hst (h.sound hs)]
          refine h.recedes hs (Recedes.trans ?_ (Recedes.of_eq (s := { s with
            permits := upd s.permits g (fun p => { p with
              state := .disarmed, lapse := 0, halfDone := false, cause := none, origin := none, age := 0 })
            brk := s.brk.set g false
            cl := s.cl.post s.postContext (.permitChange g .tripped .disarmed .cleared 0) }) rfl rfl))
          exact recedes_toDisarmed rfl (ClSide.calmer_post _ _ _) fun hl => absurd (hst.symm.trans hl) nofun

/-! ## Zones -/

theorem MotionClosed.claim_request (z : ZoneIx) (g : GroupIx) (s : State) (hs : P s) : P (Machine.claim z g s).state := by
  rw [claim_sound z g (h.sound hs)]
  split
  · exact hs
  · split
    · next hz => exact h.post _ _ (h.claim z g s hs hz)
    · split <;> exact hs

theorem MotionClosed.release_step (z : ZoneIx) (g : GroupIx) (way : ZoneWay) (s : State) (hs : P s) :
    P (s.release z g way).1 := by
  by_cases hz : s.zones[z] = some g
  · cases ho : s.occupant z g with
    | some o =>
      rw [release_occupied (h.sound hs) hz ho]
      exact hs
    | none =>
      rw [release_accepted (h.sound hs) hz ho]
      exact h.post _ _ (h.release z g s hs hz)
  · rw [release_notOwner hz]
    exact hs

theorem MotionClosed.releaseRequest (z : ZoneIx) (g : GroupIx) (s : State) (hs : P s) :
    P (Machine.releaseRequest z g s).state := by
  have hstep := h.release_step z g .release s hs
  unfold Machine.releaseRequest
  split
  all_goals
    next he =>
      rw [he] at hstep
      exact hstep

theorem MotionClosed.readMemberExtents (b : ReadingBlock) (g : GroupIx) (s : State) (hs : P s) :
    s.readMemberExtents b g = s := touchAll_sound b _ s (h.sound hs)

theorem MotionClosed.readZone (z : ZoneIx) (s : State) (hs : P s) : P (Machine.readZone z s).state := by
  cases hz : s.zones[z] with
  | none =>
    rw [readZone_free hz]
    exact hs
  | some g =>
    rw [readZone_owned hz, h.readMemberExtents .zone g s hs]
    exact hs

end

end Sys2Proof.Machine
end

section
/-! SUPPORT. What the requests to the tables, to the check unit and to the management unit can do to motion, and from
them every request's work. -/

namespace Sys2Proof.Machine

/-! ## Records that show no error -/

theorem Stored.settled_of_outcome {F : Type} {r : Stored F} (h : r.outcome = .clean ∨ r.outcome = .already) :
    r.settled := by
  unfold Stored.outcome at h
  unfold Stored.settled
  cases hp : r.poisoned with
  | true => exact .inl rfl
  | false =>
    rw [hp, if_neg Bool.false_ne_true] at h
    cases hc : r.check with
    | clean => exact .inr (.inl rfl)
    | single f => rw [hc] at h; simp at h
    | lasting f => rw [hc] at h; simp at h
    | uncorrectable => rw [hc] at h; simp at h

theorem Sound.axis_settled {s : State} (h : s.Sound) (a : AxisIx) : s.tables.axes[a].settled :=
  Stored.settled_of_outcome (h (.axis a))

theorem Sound.group_settled {s : State} (h : s.Sound) (g : GroupIx) : s.tables.groups[g].settled :=
  Stored.settled_of_outcome (h (.group g))

section
variable {P : State → Prop} (h : MotionClosed P)
include h

/-! ## Tables -/

theorem MotionClosed.writeAxis (f : AxisFields) (a : AxisIx) (s : State) (hs : P s) : P (Machine.writeAxis f a s).state := by
  have hsound := h.sound hs
  rw [writeAxis_sound f a hsound]
  split
  · exact hs
  · next hlock =>
    split
    · exact hs
    · split
      · exact hs
      · next href =>
        split
        · exact hs
        · next hrange =>
          split
          · exact hs
          · next htaken =>
            refine h.storeAxis a f s hs ⟨fun hv => ?_, fun hv => ⟨?_, ?_, fun b _ => Sound.axis_settled hsound b⟩⟩
              (Bool.eq_false_iff.mpr hlock)
            · simpa [hv] using href
            · simpa [hv] using hrange
            · simpa [hv] using htaken

theorem MotionClosed.writeGroup (f : GroupFields) (g : GroupIx) (s : State) (hs : P s) :
    P (Machine.writeGroup f g s).state := by
  have hsound := h.sound hs
  rw [writeGroup_sound f g hsound]
  split
  · exact hs
  · next hlock =>
    split
    · exact hs
    · split
      · exact hs
      · split
        · exact hs
        · next hrange =>
          split
          · exact hs
          · next hother =>
            split
            · exact hs
            · refine h.storeGroup g f s hs (fun hv => ?_) (not_not.mp hlock)
              simp only [hv, true_and, not_or, not_exists, not_and, Bool.not_eq_false] at hrange hother
              obtain ⟨hin, husable⟩ := hrange
              have hall : f.members.all (fun b => (axisOfByte b).isSome) = true := by
                simp only [GroupFields.inRange, Bool.and_eq_true] at hin
                exact hin.1.1.1.1.1.1.2
              refine ⟨hin, fun a ha => ⟨Sound.axis_settled hsound a, husable a ha⟩, List.all_eq_true.mp hall, fun a ha => ?_⟩
              cases hg : s.groupOf a with
              | none => exact .inl rfl
              | some k => exact .inr (congrArg some (not_not.mp (hother a ha k hg)))

theorem MotionClosed.writePair (f : PairFields) (p : PairIx) (s : State) (hs : P s) : P (Machine.writePair f p s).state := by
  rw [writePair_sound f p (h.sound hs)]
  split
  · exact hs
  · split
    · exact h.storePair p f s hs
    · split
      · rw [writePairChecked_sound f p _ _ (h.sound hs)]
        split
        · exact hs
        · split
          · exact hs
          · exact h.storePair p f s hs
      · exact hs

theorem MotionClosed.writeExtent (f : ExtentFields) (x : ExtentIx) (s : State) (hs : P s) :
    P (Machine.writeExtent f x s).state := by
  rw [writeExtent_sound f x (h.sound hs)]
  split
  · exact hs
  · next hlock =>
    split
    · exact hs
    · refine h.storeExtent x f s hs fun hv => Bool.eq_false_iff.mpr fun hl => hlock (.inr ⟨hv, hl⟩)

theorem MotionClosed.writeWaypoint (w : Option (Option Waypoint)) (a : AxisIx) (s : State) (hs : P s) :
    P (Machine.writeWaypoint w a s).state := by
  unfold Machine.writeWaypoint
  split
  · exact hs
  · exact h.recedes hs (Recedes.of_eq rfl rfl)

theorem MotionClosed.writeInput (level groups : Byte) (l : LineIx) (s : State) (hs : P s) :
    P (Machine.writeInput level groups l s).state := by
  cases hv : levelOfByte level with
  | none =>
    unfold Machine.writeInput
    rw [hv]
    exact hs
  | some v =>
    rw [writeInput_some s hv]
    exact h.recedes hs (Recedes.of_eq rfl rfl)

theorem MotionClosed.writeSettings (f : Settings) (k : Fin 1) (s : State) (hs : P s) :
    P (Machine.writeSettings f k s).state := by
  rw [writeSettings_sound f k (h.sound hs)]
  split
  · exact hs
  · split
    · exact hs
    · exact h.recedes hs (Recedes.of_eq rfl rfl)

theorem MotionClosed.writeSchedule (src : Byte) (k : Fin 32) (s : State) (hs : P s) :
    P (Machine.writeSchedule src k s).state := by
  unfold Machine.writeSchedule
  split
  · exact hs
  · split
    · exact hs
    · exact h.recedes hs (Recedes.of_eq rfl rfl)

theorem MotionClosed.readEntry (b : ReadingBlock) (e : EntryRef) (s : State) (hs : P s) : P (s.touch b e) := by
  rw [touch_sound _ _ _ (h.sound hs)]
  exact hs

/-! ## The check unit -/

omit h in
theorem recedes_startCheck (sg : SegIx) {a : AxisIx} {s : State} (hl : s.lockedGroup (s.groupOf a) = false) :
    Recedes s (s.startCheck sg a) := by
  refine Recedes.of_records (v := upd s.axisRec a fun r => { r with checked := false }) rfl (Recedes.of_eq rfl rfl)
    fun b g hb hg => ?_
  refine axisRec_stays_of_ne rfl fun hab => ?_
  subst hab
  rw [hb] at hl
  have hd : s.permitState g = .disarmed := bne_eq_false_iff_eq.mp hl
  rcases hg with hp | hp <;> exact absurd (hd.symm.trans hp) nofun

theorem MotionClosed.linkCheck (a : AxisIx) (s : State) (hs : P s) : P (Machine.linkCheck a s).state := by
  rw [linkCheck_sound a (h.sound hs)]
  split
  · exact hs
  · next hlock =>
    split
    · exact hs
    · split
      · exact hs
      · split
        · exact hs
        · split
          · exact h.recedes hs (recedes_startCheck _ (Bool.eq_false_iff.mpr hlock))
          · exact hs

theorem MotionClosed.creepStart (d : Word16) (g : GroupIx) (s : State) (hs : P s) :
    P (Machine.creepStart d g s).state := by
  rw [creepStart_sound d g (h.sound hs)]
  split
  · exact hs
  · split
    · exact hs
    · split
      · exact hs
      · split
        · exact hs
        · split
          · exact hs
          · exact h.recedes hs (Recedes.of_eq rfl rfl)

theorem MotionClosed.creepStop (g : GroupIx) (s : State) (hs : P s) : P (Machine.creepStop g s).state := by
  unfold Machine.creepStop
  split
  · exact hs
  · split
    · exact hs
    · exact h.recedes hs (recedes_finishCreep g (h.sound hs))

/-! ## The management unit -/

theorem MotionClosed.loadSchedule (s : State) (hs : P s) : P (Machine.loadSchedule s).state := by
  have hpend : Recedes s { s with cl := s.cl.setPending } := Recedes.of_eq rfl rfl
  unfold Machine.loadSchedule
  split
  · exact hs
  · split
    · exact hs
    · dsimp only
      split
      · exact h.recedes hs (hpend.trans (recedes_calmer (ClSide.calmer_loadIdle _ s.cl.setPending rfl)))
      · exact h.recedes hs hpend

theorem MotionClosed.readTripRecord (s : State) (hs : P s) : P (Machine.readTripRecord s).state := by
  unfold Machine.readTripRecord
  dsimp only
  split <;> exact h.recedes hs (Recedes.of_eq rfl rfl)

omit h in
theorem recedes_clearCounters (s : State) : Recedes s s.clearCounters where
  queues := Shrinks.refl s
  entries := ⟨rfl, rfl, rfl, rfl, rfl⟩
  zones := rfl
  resets := id
  permit := fun g => by
    have hget : s.clearCounters.permits[g] = s.permits[g].clearFurther := map_get _ _ g
    rw [hget]
    unfold Permit.clearFurther
    split
    · exact .inl (PermitStays.refl _)
    · exact .inl (PermitStays.of_eq rfl rfl)
  record := fun a _ _ _ => by
    have hget : s.clearCounters.axisRec[a] = { s.axisRec[a] with lateCount := 0, clampCount := 0 } := map_get _ _ a
    rw [hget]
    exact ⟨id, id⟩

/-! ## Every request's work -/

omit h in
theorem keeps_withIndex {n : Nat} {b : Byte} {f : Fin n → State → Answer} {s : State} (hs : P s)
    (hf : ∀ i, P (f i s).state) : P (withIndex n b s f).state := by
  unfold withIndex
  split
  · exact hf _
  · exact hs

theorem MotionClosed.requestWork (d : Demand) (s : State) (hi : s.resets = []) (hs : P s) :
    P (Machine.requestWork d s).state := by
  cases d with
  | unknown | writeZone | softReset => exact hs
  | readAxis i => exact keeps_withIndex hs fun a => h.readEntry .management (.axis a) s hs
  | readGroup i => exact keeps_withIndex hs fun g => h.readEntry .management (.group g) s hs
  | readPair i => exact keeps_withIndex hs fun p => h.readEntry .management (.pair p) s hs
  | readExtent i => exact keeps_withIndex hs fun x => h.readEntry .management (.extent x) s hs
  | readZone i => exact keeps_withIndex hs fun z => h.readZone z s hs
  | readWaypoint i | readInput i | readSettings i | readSchedule i | readStatus i | creepResult i =>
    exact keeps_withIndex hs fun _ => hs
  | writeAxis i f => exact keeps_withIndex hs fun a => h.writeAxis f a s hs
  | writeGroup i f => exact keeps_withIndex hs fun g => h.writeGroup f g s hs
  | writePair i f => exact keeps_withIndex hs fun p => h.writePair f p s hs
  | writeExtent i f => exact keeps_withIndex hs fun x => h.writeExtent f x s hs
  | writeWaypoint i w => exact keeps_withIndex hs fun a => h.writeWaypoint w a s hs
  | writeInput i level groups => exact keeps_withIndex hs fun l => h.writeInput level groups l s hs
  | writeSettings i f => exact keeps_withIndex hs fun k => h.writeSettings f k s hs
  | writeSchedule i source => exact keeps_withIndex hs fun k => h.writeSchedule source k s hs
  | keyArm g => exact keeps_withIndex hs fun g => h.presentArm g s hs hi
  | keyRun g => exact keeps_withIndex hs fun g => h.presentRun g s hs
  | keyOther g => exact keeps_withIndex hs fun g => h.presentOther g s hs
  | park g => exact keeps_withIndex hs fun g => h.parkGroup g s hs
  | forceTrip g => exact keeps_withIndex hs fun g => h.trip _ s hs
  | clearTrip g => exact keeps_withIndex hs fun g => h.clearTripGroup g s hs
  | claimZone z g => exact keeps_withIndex hs fun z => keeps_withIndex hs fun g => h.claim_request z g s hs
  | releaseZone z g => exact keeps_withIndex hs fun z => keeps_withIndex hs fun g => h.releaseRequest z g s hs
  | linkCheck a => exact keeps_withIndex hs fun a => h.linkCheck a s hs
  | creepStart g d => exact keeps_withIndex hs fun g => h.creepStart d g s hs
  | creepStop g => exact keeps_withIndex hs fun g => h.creepStop g s hs
  | loadSchedule => exact h.loadSchedule s hs
  | readTripRecord => exact h.readTripRecord s hs
  | rewindTripRecords => exact h.recedes hs (Recedes.of_eq rfl rfl)
  | clearCounters => exact h.recedes hs (recedes_clearCounters s)

/-! ## The taking of a request -/

omit h in
theorem recedes_pushReply (r : Reply) (s : State) : Recedes s (s.pushReply r) := by
  have hkick := ClSide.calmer_kick s.postContext { s.cl with replies := s.cl.replies ++ [r] }
  exact Recedes.of_same ⟨fun _ => .refl _, hkick.forward⟩ (SameEntries.refl _) rfl rfl rfl rfl

omit h in
theorem recedes_draw (s : State) : Recedes s { s with freeCount := s.freeCount + 1 } := Recedes.of_eq rfl rfl

omit h in
theorem recedes_reply (q : Request) (r : Answer) : Recedes r.state (r.reply q) := by
  unfold Answer.reply State.replyCode
  cases q.code with
  | some c => exact recedes_pushReply _ _
  | none => exact (recedes_draw r.state).trans (recedes_pushReply _ _)

omit h in
theorem recedes_popRequest (s : State) : Recedes s s.popRequest := Recedes.of_eq rfl rfl

theorem MotionClosed.answered (q : Request) (r : Answer) (hs : P r.state) : P (r.reply q).settle :=
  h.settle _ (h.recedes hs (recedes_reply q r))

omit h in
theorem takeable_some {s : State} {q : Request} (hq : s.takeable = some q) : s.Presents q q.demand := by
  unfold State.takeable at hq
  split at hq
  · next hc =>
    obtain ⟨hr, hlen⟩ := Bool.and_eq_true_iff.mp hc
    exact ⟨List.isEmpty_iff.mp hr, of_decide_eq_true hlen, hq, rfl⟩
  · cases hq

/-- A row that takes requests serves its own by the work of the request's block. -/
theorem MotionClosed.serve {handle : Demand → Option (State → Answer)}
    (hw : ∀ d w, handle d = some w → w = Machine.requestWork d) (s : State) (hs : P s) : P (s.serve handle) := by
  unfold State.serve
  split
  · exact hs
  · next q hq =>
    split
    · exact hs
    · next w hd =>
      rw [hw _ _ hd]
      exact h.answered q _ (h.requestWork _ s.popRequest (takeable_some hq).done (h.recedes hs (recedes_popRequest s)))

end

end Sys2Proof.Machine
end

section
/-! SUPPORT. What the admission unit and the sample monitor can do to motion. -/

namespace Sys2Proof.Machine

/-! ## Entries that join a setpoint queue -/

theorem enqueue_frame (e : SetpointEntry) (s : State) : s.enqueue e = { s with
    egress := { s.egress with setpoints := (s.enqueue e).egress.setpoints } } := by
  cases hsg : segOfByte s.tables.axes[e.axis].held.segment with
  | none =>
    rw [enqueue_unmapped hsg]
  | some sg =>
    rw [enqueue_mapped hsg]

theorem holdInPlace_frame (s : State) (a : AxisIx) : s.holdInPlace a = { s with
    egress := { s.egress with setpoints := (s.holdInPlace a).egress.setpoints } } := by
  unfold State.holdInPlace
  split
  · split
    · rfl
    · exact enqueue_frame _ s
  · rfl

/-- Not a valid axis free of poison, then poisoned: what check 1 lets pass (R37). -/
def State.Fit (s : State) (a : AxisIx) : Prop := ¬ (s.tables.axes[a].poisoned = false ∧ s.tables.axes[a].held.valid = false)

theorem State.Fit.of_tables {s t : State} {a : AxisIx} (h : s.Fit a) (ht : t.tables = s.tables) : t.Fit a := by
  unfold State.Fit
  rw [ht]
  exact h

theorem State.MayMove.of_same {s t : State} {e : SetpointEntry} (h : s.MayMove e) (ht : t.tables = s.tables)
    (hp : t.permits = s.permits) (hz : t.zones = s.zones) : t.MayMove e := by
  have hgroup : ∀ a, t.groupOf a = s.groupOf a := fun a => by
    unfold State.groupOf
    rw [ht]
  have hstate : ∀ g, t.permitState g = s.permitState g := fun g => by
    unfold State.permitState
    rw [hp]
  have hlive : ∀ x, t.liveExtent x = s.liveExtent x := fun x => by
    unfold State.liveExtent
    rw [ht]
  have haxis : ∀ x, t.extentAxis x = s.extentAxis x := fun x => by
    unfold State.extentAxis
    rw [ht]
  have howned : ∀ z g, t.zoneOwnedBy z g = s.zoneOwnedBy z g := fun z g => by
    unfold State.zoneOwnedBy
    rw [hz]
  refine ⟨?_, ?_, ?_, ?_, ?_, ?_⟩
  · rw [ht]; exact h.valid
  · rw [ht]; exact h.clean
  · simp only [hgroup, hstate]; exact h.live
  · rw [ht]; exact h.low
  · rw [ht]; exact h.high
  · simp only [hlive, haxis, howned, hgroup, ht]; exact h.owned

theorem ofInt_toInt_between {low high : Word32} {x : Int} (hl : low.toInt ≤ x) (hh : x ≤ high.toInt) :
    (BitVec.ofInt 32 x).toInt = x := by
  have h1 := low.le_toInt
  have h2 := high.toInt_lt
  rw [BitVec.toInt_ofInt]
  exact Int.bmod_eq_of_le (by omega) (by omega)

theorem mayMove_of_judged {s : State} {a : AxisIx} {g : GroupIx} {x : Int} {ref : Word32}
    {f : AxisFields} (hfit : s.Fit a) (hclean : s.tables.axes[a].poisoned = false) (hg : s.groupOf a = some g)
    (hl : s.permitState g = .live)
    (hwin : ¬ (x < s.tables.axes[a].held.softLow.toInt ∨ s.tables.axes[a].held.softHigh.toInt < x))
    (hown : ¬ s.meetsUnowned x ⟨a, ref, f⟩ = true) (cap : Word16) :
    s.MayMove ⟨a, .position, BitVec.ofInt 32 x, cap, ref⟩ := by
  rw [not_or, Int.not_lt, Int.not_lt] at hwin
  obtain ⟨hlow, hhigh⟩ := hwin
  have hx := ofInt_toInt_between hlow hhigh
  refine ⟨?_, hclean, ⟨g, hg, hl⟩, ?_, ?_, fun y hlive haxis hover => ?_⟩
  · by_contra hv
    exact hfit ⟨hclean, Bool.eq_false_iff.mpr hv⟩
  · rw [hx]; exact hlow
  · rw [hx]; exact hhigh
  · dsimp only at hover haxis ⊢
    rw [hx] at hover
    by_contra hno
    refine hown (List.any_eq_true.mpr ⟨y, List.mem_finRange y, ?_⟩)
    simp only [hlive, haxis, hover, Bool.eq_false_iff.mpr hno, beq_self_eq_true, Bool.and_self, Bool.not_false]

theorem touching_clean {s : State} {a : AxisIx} {l : List EntryRef} (hl : EntryRef.axis a ∈ l)
    (h : ¬ l.any s.tables.isPoisoned = true) : s.tables.axes[a].poisoned = false := by
  by_contra hp
  exact h (List.any_eq_true.mpr ⟨.axis a, hl, (Bool.not_eq_false _).mp hp⟩)

section
variable {P : State → Prop} (h : MotionClosed P)
include h

theorem MotionClosed.axisRecord (a : AxisIx) {f : AxisRecord → AxisRecord} {s : State} (hs : P s)
    (hf : RecordStays s.axisRec[a] (f s.axisRec[a])) : P (s.modAxis a f) := h.recedes hs (recedes_axis a hf)

theorem MotionClosed.refuseSetpoint (a : AxisIx) (r : RefusalReason) (p : SetpointPayload) (follow : Option AxisIx)
    (s : State) (hs : P s) : P (s.refuseSetpoint a r p follow) := by
  unfold State.refuseSetpoint
  split
  · exact hs
  · exact h.axisRecord a (h.post _ _ hs) ⟨id, id⟩

theorem MotionClosed.holdInPlace {a : AxisIx} {s : State} (hs : P s) (hf : s.Fit a) : P (s.holdInPlace a) := by
  unfold State.holdInPlace
  split
  · split
    · exact hs
    · next hp =>
      have hclean := Bool.eq_false_iff.mpr hp
      refine h.enqueueRest _ s hs nofun ?_ hclean
      by_contra hv
      exact hf ⟨hclean, Bool.eq_false_iff.mpr hv⟩
  · exact hs

theorem MotionClosed.holdBoth {a b : AxisIx} {s : State} (hs : P s) (ha : s.Fit a) (hb : s.Fit b) :
    P ((s.holdInPlace a).holdInPlace b) :=
  h.holdInPlace (h.holdInPlace hs ha) (hb.of_tables (by rw [holdInPlace_frame]))

/-! ## HOLD and BRAKE -/

theorem MotionClosed.queueRest {a : AxisIx} {p : SetpointPayload} {x : Word32} {s : State} (hs : P s)
    (hm : p.mode ≠ .position) (hf : ¬ (s.tables.axes[a].poisoned = true ∨ s.tables.axes[a].held.valid = false)) :
    P (s.queueRest a p x) := by
  rw [not_or, Bool.not_eq_true, Bool.not_eq_false] at hf
  obtain ⟨hp, hv⟩ := hf
  exact h.enqueueRest _ s hs hm hv hp

theorem MotionClosed.admitHold (a : AxisIx) (p : SetpointPayload) (s : State) (hm : p.mode ≠ .position) (hs : P s) :
    P (s.admitHold a p) := by
  rw [admitHold_sound (h.sound hs)]
  split
  · exact h.refuseSetpoint _ _ _ _ _ hs
  · next hf =>
    split
    · exact h.refuseSetpoint _ _ _ _ _ hs
    · exact h.queueRest hs hm hf

theorem MotionClosed.admitBrake (a : AxisIx) (p : SetpointPayload) (s : State) (hm : p.mode ≠ .position) (hs : P s) :
    P (s.admitBrake a p) := by
  rw [admitBrake_sound (h.sound hs)]
  split
  · exact h.refuseSetpoint _ _ _ _ _ hs
  · next hf => exact h.queueRest hs hm hf

/-! ## POSITION -/

theorem MotionClosed.clamped (a : AxisIx) {s : State} (hs : P s) (p : Prop) [Decidable p] :
    P (if p then s else s.modAxis a fun r => { r with clampCount := satInc r.clampCount }) := by
  split
  · exact hs
  · exact h.axisRecord a hs ⟨id, id⟩

/-- One axis's accepted setpoint joins its queue, and its refusals are reported anew (R44, R36). -/
theorem MotionClosed.acceptPosition {e : SetpointEntry} {s : State} (hs : P s) (he : s.MayMove e) :
    P ((s.enqueue e).modAxis e.axis fun r => { r with refusalReported := false }) :=
  h.axisRecord e.axis (h.enqueuePosition e s hs he) ⟨id, id⟩

omit h in
theorem clamped_same (a : AxisIx) (s : State) (p : Prop) [Decidable p] :
    ∃ v, (if p then s else s.modAxis a fun r => { r with clampCount := satInc r.clampCount }) =
      { s with axisRec := v } := by
  split
  · exact ⟨_, rfl⟩
  · exact ⟨_, rfl⟩

theorem MotionClosed.refusedHeld {a : AxisIx} {s : State} (hs : P s) (hf : s.Fit a) (r : RefusalReason)
    (p : SetpointPayload) (follow : Option AxisIx) : P ((s.holdInPlace a).refuseSetpoint a r p follow) :=
  h.refuseSetpoint _ _ _ _ _ (h.holdInPlace hs hf)

theorem MotionClosed.refusedBoth {a b : AxisIx} {s : State} (hs : P s) (ha : s.Fit a) (hb : s.Fit b)
    (r : RefusalReason) (p : SetpointPayload) (follow : Option AxisIx) :
    P (((s.holdInPlace a).holdInPlace b).refuseSetpoint a r p follow) :=
  h.refuseSetpoint _ _ _ _ _ (h.holdBoth hs ha hb)

theorem MotionClosed.admitSingle {a : AxisIx} {p : SetpointPayload} {s : State} (hs : P s)
    (hu : s.unitFollow a = none) : P (s.admitPosition a p) := by
  have hjudged := admitPosition_single_judged (p := p) (h.sound hs) hu
  obtain ⟨-, hjudged⟩ | ⟨hfit, hjudged⟩ := ite_prop_iff_or.mp hjudged
  · rw [hjudged]; exact h.refuseSetpoint _ _ _ _ _ hs
  cases hg : s.groupOf a with
  | none =>
    rw [hg] at hjudged
    rw [hjudged]; exact h.refuseSetpoint _ _ _ _ _ hs
  | some g =>
    rw [hg] at hjudged
    obtain ⟨-, hjudged⟩ | ⟨hlive, hjudged⟩ := ite_prop_iff_or.mp hjudged
    · rw [hjudged]; exact h.refuseSetpoint _ _ _ _ _ hs
    obtain ⟨-, hjudged⟩ | ⟨hany, hjudged⟩ := ite_prop_iff_or.mp hjudged
    · rw [hjudged]; exact h.refusedHeld hs hfit _ _ _
    obtain ⟨-, hjudged⟩ | ⟨-, hjudged⟩ := ite_prop_iff_or.mp hjudged
    · rw [hjudged]; exact h.refusedHeld hs hfit _ _ _
    cases hl : s.axisRec[a].latest with
    | none =>
      rw [hl] at hjudged
      rw [hjudged]; exact h.refuseSetpoint _ _ _ _ _ hs
    | some l =>
      rw [hl] at hjudged
      obtain ⟨-, hjudged⟩ | ⟨-, x, s2, -, hs2, hout⟩ := ite_prop_iff_or.mp hjudged
      · rw [hjudged]; exact h.refusedHeld hs hfit _ _ _
      have h2 : P s2 := by rw [hs2]; exact h.clamped a hs _
      obtain ⟨v, hv⟩ := clamped_same a s (x = p.target.toInt)
      rw [hv] at hs2
      have hfit2 : s2.Fit a := State.Fit.of_tables hfit (by rw [hs2])
      obtain ⟨-, hout⟩ | ⟨hwin, hout⟩ := ite_prop_iff_or.mp hout
      · rw [hout]; exact h.refusedHeld h2 hfit2 _ _ _
      obtain ⟨-, hout⟩ | ⟨hown, hout⟩ := ite_prop_iff_or.mp hout
      · rw [hout]; exact h.refusedHeld h2 hfit2 _ _ _
      rw [hout]
      have hmove := mayMove_of_judged hfit (touching_clean List.mem_cons_self hany) hg (not_not.mp hlive) hwin hown
      exact h.acceptPosition h2 ((hmove _).of_same (by rw [hs2]) (by rw [hs2]) (by rw [hs2]))

theorem MotionClosed.admitUnitTargeted {a b : AxisIx} {p : SetpointPayload} {follow : Option AxisIx}
    {l m : LatestSample} {s out : State} (hs : P s) (ha : s.Fit a) (hb : s.Fit b)
    (hca : s.tables.axes[a].poisoned = false) (hcb : s.tables.axes[b].poisoned = false)
    {g k : GroupIx} (hga : s.groupOf a = some g) (hla : s.permitState g = .live) (hgb : s.groupOf b = some k)
    (hlb : s.permitState k = .live) (hout : s.UnitTargeted a b p follow l m out) : P out := by
  obtain ⟨low, high, -, -, hjudged⟩ := hout
  obtain ⟨-, hjudged⟩ | ⟨-, x, s2, -, hs2, hout⟩ := ite_prop_iff_or.mp hjudged
  · rw [hjudged]; exact h.refusedBoth hs ha hb _ _ _
  obtain ⟨v, hv⟩ : ∃ v, s2 = { s with axisRec := v } := by
    rw [hs2]
    split
    · exact ⟨_, rfl⟩
    · exact ⟨_, rfl⟩
  have h2 : P s2 := by
    rw [hs2]
    split
    · exact hs
    · exact h.axisRecord b (h.axisRecord a hs ⟨id, id⟩) ⟨id, id⟩
  have ha2 : s2.Fit a := ha.of_tables (by rw [hv])
  have hb2 : s2.Fit b := hb.of_tables (by rw [hv])
  obtain ⟨-, hout⟩ | ⟨hwina, hout⟩ := ite_prop_iff_or.mp hout
  · rw [hout]; exact h.refusedBoth h2 ha2 hb2 _ _ _
  obtain ⟨-, hout⟩ | ⟨howna, hout⟩ := ite_prop_iff_or.mp hout
  · rw [hout]; exact h.refusedBoth h2 ha2 hb2 _ _ _
  obtain ⟨-, hout⟩ | ⟨hwinb, hout⟩ := ite_prop_iff_or.mp hout
  · rw [hout]; exact h.refusedBoth h2 ha2 hb2 _ _ _
  obtain ⟨-, hout⟩ | ⟨hownb, hout⟩ := ite_prop_iff_or.mp hout
  · rw [hout]; exact h.refusedBoth h2 ha2 hb2 _ _ _
  rw [hout]
  have hmovea := mayMove_of_judged ha hca hga hla hwina howna
  have hmoveb := mayMove_of_judged hb hcb hgb hlb hwinb hownb
  refine h.acceptPosition (h.acceptPosition h2 ((hmovea _).of_same (by rw [hv]) (by rw [hv]) (by rw [hv])))
    ((hmoveb _).of_same ?_ ?_ ?_)
  all_goals
    rw [enqueue_frame, hv]
    rfl

theorem MotionClosed.admitUnit {a b : AxisIx} {p : SetpointPayload} {s : State} (hs : P s)
    (hu : s.unitFollow a = some b) : P (s.admitPosition a p) := by
  obtain ⟨follow, -, hjudged⟩ := admitPosition_unit_judged (p := p) (h.sound hs) hu
  obtain ⟨-, hjudged⟩ | ⟨hfit, hjudged⟩ := ite_prop_iff_or.mp hjudged
  · rw [hjudged]; exact h.refuseSetpoint _ _ _ _ _ hs
  rw [not_or] at hfit
  obtain ⟨hfa, hfb⟩ := hfit
  split at hjudged
  · next g k hga hgb =>
    obtain ⟨-, hjudged⟩ | ⟨hlive, hjudged⟩ := ite_prop_iff_or.mp hjudged
    · rw [hjudged]; exact h.refuseSetpoint _ _ _ _ _ hs
    rw [not_or, not_not, not_not] at hlive
    obtain ⟨hla, hlb⟩ := hlive
    obtain ⟨-, hjudged⟩ | ⟨hany, hjudged⟩ := ite_prop_iff_or.mp hjudged
    · rw [hjudged]; exact h.refusedBoth hs hfa hfb _ _ _
    obtain ⟨-, hjudged⟩ | ⟨-, hjudged⟩ := ite_prop_iff_or.mp hjudged
    · rw [hjudged]; exact h.refusedBoth hs hfa hfb _ _ _
    have hca := touching_clean (List.mem_append_left _ List.mem_cons_self) hany
    have hcb := touching_clean (List.mem_append_right _ List.mem_cons_self) hany
    unfold State.UnitSampled at hjudged
    split at hjudged
    · split at hjudged
      · rw [hjudged]; exact h.refusedBoth hs hfa hfb _ _ _
      · exact h.admitUnitTargeted hs hfa hfb hca hcb hga hla hgb hlb hjudged
    · rw [hjudged]; exact h.refusedBoth hs hfa hfb _ _ _
  · rw [hjudged]; exact h.refuseSetpoint _ _ _ _ _ hs

theorem MotionClosed.admitPosition (a : AxisIx) (p : SetpointPayload) (s : State) (hs : P s) :
    P (s.admitPosition a p) := by
  cases hu : s.unitFollow a with
  | none => exact h.admitSingle hs hu
  | some b => exact h.admitUnit hs hu

theorem MotionClosed.takeSetpoint {mode : Mode} {work : AxisIx → SetpointPayload → State → State}
    (hw : ∀ a p s, p.mode = mode → P s → P (work a p s)) (s : State) (hs : P s) : P (s.takeSetpoint mode work) := by
  unfold State.takeSetpoint
  split
  · exact hs
  · next f rest _ =>
    have hpop : P { s with paths := { s.paths with setpoint := rest } } := h.recedes hs (Recedes.of_eq rfl rfl)
    dsimp only
    split
    · exact h.recedes hpop (Recedes.of_eq rfl rfl)
    · split
      · next hm => exact h.settle _ (hw _ _ _ hm hpop)
      · exact hs

/-! ## The sample monitor -/

omit h in
theorem calmer_ite_post_else {c : ClSide} {ctx : PostContext} {b : ReportBody} (p : Prop) [Decidable p] :
    c.Calmer (if p then c else c.post ctx b) := by
  split
  · exact ClSide.Calmer.refl c
  · exact ClSide.calmer_post ctx b c

omit h in
theorem recedes_intrusion (t : Taken) (x : Option ExtentIx) (s : State) : Recedes s (s.intrusion t x) := by
  cases x with
  | none =>
    rw [intrusion_none]
    exact recedes_axis t.axis (f := fun r => { r with intrusion := false }) ⟨id, id⟩
  | some x =>
    rw [intrusion_some]
    exact (recedes_axis t.axis (f := fun r => { r with intrusion := true }) ⟨id, id⟩).trans
      (Recedes.of_calmer (calmer_ite_post _) rfl)

omit h in
theorem recedes_sendCauses (t : Taken) (causes : List Cause) {s : State} (hs : s.Sound) :
    Recedes s (s.sendCauses t causes) := by
  unfold State.sendCauses
  split
  · exact recedes_foldl (fun u c _ => recedes_send _ _ u) causes s hs
  · exact Recedes.refl s

omit h in
theorem recedes_envelopeStep (t : Taken) (f : AxisFields) {s : State} (hs : s.Sound) :
    Recedes s (s.envelopeStep t f) := by
  unfold State.envelopeStep
  rw [touchAll_sound _ _ s hs]
  exact (recedes_sendCauses t _ hs).trans (recedes_intrusion t _ _)

omit h in
theorem recedes_skewStep (t : Taken) {s : State} (hs : s.Sound) : Recedes s (s.skewStep t) := by
  unfold State.skewStep
  split
  · exact Recedes.refl s
  · next p _ =>
    rw [touchSkew_sound _ hs]
    split
    · exact Recedes.refl s
    · rw [touchSkew_sound _ hs]
      dsimp only
      split
      · split
        · rw [evaluateSkew_eq t p _ _ _ s rfl]
          exact Recedes.of_calmer (calmer_ite_post_else _) rfl
        · exact Recedes.refl s
      · exact Recedes.refl s

theorem MotionClosed.waypointStep (t : Taken) (s : State) (hs : P s) : P (s.waypointStep t) := by
  have hrelease : ∀ w, P (s.autoRelease t w).1 := fun w => by
    unfold State.autoRelease
    split
    · exact hs
    · split
      · exact hs
      · exact h.release_step _ _ _ s hs
  unfold State.waypointStep
  split
  · split
    · rw [fire_eq]
      exact h.recedes (hrelease _) (Recedes.of_calmer (ClSide.calmer_post _ _ _) rfl)
    · exact hs
  · exact hs

omit h in
theorem recedes_addIncrement (g : GroupIx) (n : Nat) {s : State} (hs : s.Sound) : Recedes s (s.addIncrement g n) := by
  by_cases hrun : s.creep[g].state = .running
  · rw [addIncrement_running hs hrun]
    exact Recedes.of_calmer (calmer_ite_post_else _) rfl
  · rw [addIncrement_idle hrun]
    exact Recedes.refl s

omit h in
theorem recedes_creepStep (t : Taken) {s : State} (hs : s.Sound) : Recedes s (s.creepStep t) := by
  unfold State.creepStep
  split
  · split
    · exact recedes_addIncrement _ _ hs
    · exact Recedes.refl s
  · exact Recedes.refl s

theorem MotionClosed.forwardStep {t : Taken} {s : State} (hs : P s) (hp : s.tables.axes[t.axis].poisoned = false) :
    P (s.forwardStep t s.tables.axes[t.axis].held) := by
  unfold State.forwardStep
  split
  · next hf =>
    split
    · next sg hsg =>
      exact h.recedes (h.forward sg ⟨t.axis, t.sample.cycle, t.sample.position, t.sample.velocity, t.sample.flags⟩ s hs
        hp hf hsg) (recedes_calmer (ClSide.calmer_kick _ _))
    · exact hs
  · exact hs

theorem MotionClosed.judgeSample {t : Taken} {s : State} (hs : P s) (hp : s.tables.axes[t.axis].poisoned = false) :
    P (s.judgeSample t s.tables.axes[t.axis].held) := by
  have hsound := h.sound hs
  have k1 := envelopeStep_kept t s.tables.axes[t.axis].held hsound
  have k2 := k1.trans (skewStep_kept t (k1.sound hsound))
  have k3 := k2.trans (waypointStep_kept t (k2.sound hsound))
  have k4 := k3.trans (creepStep_kept t (k3.sound hsound))
  have h2 := h.recedes (h.recedes hs (recedes_envelopeStep t s.tables.axes[t.axis].held hsound))
    (recedes_skewStep t (k1.sound hsound))
  have h4 := h.recedes (h.waypointStep t _ h2) (recedes_creepStep t (k3.sound hsound))
  have htables := congrArg State.tables k4.frame
  unfold State.judgeSample
  generalize (((s.envelopeStep t s.tables.axes[t.axis].held).skewStep t).waypointStep t).creepStep t = u at h4 htables ⊢
  have hax : u.tables = s.tables := htables
  rw [← hax] at hp ⊢
  exact h.forwardStep h4 hp

theorem MotionClosed.acceptSample (f : SampleFrame) (s : State) (hs : P s) : P (s.acceptSample f) := by
  obtain ⟨k, hk⟩ : ∃ k, k = s.taken s.tables.axes[f.axis].held.mirrored f := ⟨_, rfl⟩
  have haxis : k.axis = f.axis := by rw [hk]; rfl
  have hrec : P (s.recordSample k) := h.axisRecord k.axis hs ⟨id, id⟩
  have htables : (s.recordSample k).tables = s.tables := rfl
  rw [acceptSample_sound (h.sound hs)]
  dsimp only
  rw [← hk]
  split
  · exact hrec
  · next hp =>
    have hjudge := h.judgeSample (t := k) hrec (by
      simp only [htables, haxis]
      exact Bool.eq_false_iff.mpr hp)
    simpa only [htables, haxis] using hjudge

theorem MotionClosed.takeSample (f : SampleFrame) (s : State) (hs : P s) : P (s.takeSample f) := by
  unfold State.takeSample
  split
  · exact hs
  · split
    · exact h.acceptSample f s hs
    · exact h.axisRecord f.axis hs ⟨id, id⟩

end

end Sys2Proof.Machine
end

section
/-! SUPPORT. Every event and every step, by what it can do to motion. -/

namespace Sys2Proof.Machine

/-! ## Frames and lines -/

theorem recedes_countBad (p : PortId) (s : State) : Recedes s (s.countBad p) := by
  cases p <;> exact Recedes.of_eq rfl rfl

theorem recedes_validFrame (p : PortId) (s : State) : Recedes s (s.validFrame p) := by
  unfold State.validFrame
  dsimp only
  split
  · exact recedes_port p _ s
  · exact (recedes_port p _ s).trans (recedes_post _ _)

theorem recedes_routeCl (f : RawFrame) (s : State) : Recedes s (s.routeCl f) := by
  unfold State.routeCl State.pathSetpoint State.queueRequest
  split
  · split
    · exact Recedes.of_eq rfl rfl
    · exact recedes_countBad .cl s
  · split
    · split <;> exact Recedes.of_eq rfl rfl
    · exact Recedes.refl s

theorem recedes_receiveCl (bytes : List Byte) (s : State) : Recedes s (s.receiveCl bytes) := by
  unfold State.receiveCl
  split
  · exact (recedes_validFrame .cl s).trans (recedes_routeCl _ _)
  · exact recedes_countBad .cl s

theorem recedes_pathSample (sg : SegIx) (f : SampleFrame) (s : State) : Recedes s (s.pathSample sg f) := by
  unfold State.pathSample
  split
  · exact Recedes.of_eq rfl rfl
  · exact recedes_countBad (.seg sg) s

theorem recedes_pathEcho (sg : SegIx) (f : EchoFrame) (s : State) : Recedes s (s.pathEcho sg f) := by
  unfold State.pathEcho
  split
  · exact Recedes.of_eq rfl rfl
  · exact recedes_countBad (.seg sg) s

theorem recedes_routeMapped (sg : SegIx) (a : AxisIx) (f : RawFrame) (s : State) : Recedes s (s.routeMapped sg a f) := by
  unfold State.routeMapped
  split
  · split
    · exact recedes_pathSample sg _ s
    · exact Recedes.refl s
  · split
    · exact recedes_pathEcho sg _ s
    · exact Recedes.refl s

theorem recedes_receiveSeg (sg : SegIx) (bytes : List Byte) (s : State) : Recedes s (s.receiveSeg sg bytes) := by
  unfold State.receiveSeg State.routeSeg
  split
  · refine (recedes_validFrame (.seg sg) s).trans ?_
    split
    · exact recedes_routeMapped sg _ _ _
    · exact Recedes.of_eq rfl rfl
  · exact recedes_countBad (.seg sg) s

theorem recedes_changeLevel (l : LineIx) (level : Level) (s : State) : Recedes s (s.changeLevel l level) := by
  by_cases h : level = s.inputs[l].held
  · rw [changeLevel_same h]
    exact Recedes.refl s
  · obtain ⟨also, n, -, heq⟩ := changeLevel_new h
    rw [heq]
    exact Recedes.of_calmer (ClSide.calmer_post _ _ _) rfl

/-! ## Echoes -/

theorem recedes_judged (sg : SegIx) (f : EchoFrame) (j : Judgement) (s : State) : Recedes s (s.judged sg f j) := by
  unfold State.judged
  split
  · exact Recedes.of_eq rfl rfl
  · exact (recedes_axis f.axis (f := fun x => { x with checked := true }) ⟨fun _ => rfl, id⟩).trans
      (recedes_endCheck sg .pass _ _)
  · exact recedes_endCheck sg _ _ s

theorem recedes_takeEcho (sg : SegIx) (f : EchoFrame) {s : State} (hs : s.Sound) : Recedes s (s.takeEcho sg f) := by
  unfold State.takeEcho
  rw [touch_sound _ _ _ hs]
  split
  · exact Recedes.refl s
  · dsimp only
    split
    · exact recedes_judged sg f _ s
    · exact Recedes.refl s

/-! ## Soft resets -/

theorem recedes_doneReset (b : ResetBlock) (s : State) : Recedes s (s.doneReset b) where
  queues := Shrinks.refl s
  entries := SameEntries.refl _
  zones := rfl
  resets := fun h => by
    rw [State.doneReset_resets, h]
    rfl
  permit := fun _ => .inl (PermitStays.refl _)
  record := fun _ _ _ _ => RecordStays.refl _

theorem recedes_resetTrips (s : State) : Recedes s s.resetTrips := by
  rw [resetTrips_eq]
  exact Recedes.of_eq rfl rfl

section
variable {P : State → Prop} (h : MotionClosed P)
include h

theorem MotionClosed.resetNext (s : State) (hs : P s) : P s.resetNext := by
  by_cases hr : s.resets = []
  · have hnone : s.readyResets = [] := by simp [State.readyResets, hr]
    unfold State.resetNext
    rw [hnone]
    exact hs
  · obtain ⟨b, v, -, hv, heq⟩ := resetNext_eq hr
    have hvP : P v := by
      rw [hv]
      exact h.recedes hs (Recedes.of_eq rfl rfl)
    have hvr : v.resets ≠ [] := by rwa [hv]
    have hblock : P (v.resetBlock b) := by
      by_cases hb : b = .trip
      · subst hb
        exact h.recedes hvP (recedes_resetTrips v)
      · exact h.resetBlock b v hvP hb hvr
    rw [heq]
    exact h.settle _ (h.recedes hblock (recedes_doneReset b _))

theorem MotionClosed.resetFor (n : Nat) (s : State) (hs : P s) : P (s.resetFor n) := by
  induction n generalizing s with
  | zero => exact hs
  | succ n ih => exact ih _ (h.resetNext s hs)

theorem MotionClosed.finishResets (s : State) (hs : P s) : P s.finishResets := h.resetFor _ s hs

theorem MotionClosed.takeSoftReset (q : Request) (s : State) (hs : P s) : P (s.takeSoftReset q) := by
  have hpop : P s.popRequest := h.recedes hs (recedes_popRequest s)
  cases hg : s.validNotDisarmed with
  | some g =>
    rw [takeSoftReset_refused (h.sound hs) hg]
    exact h.answered q _ hpop
  | none =>
    rw [takeSoftReset_accepted (h.sound hs) hg]
    refine h.settle _ (h.beginReset _ (h.recedes hpop (recedes_reply q (Answer.ok s.popRequest []))) ?_)
    unfold Answer.reply State.replyCode
    split <;> exact hg

theorem MotionClosed.execSoftReset {s t : State} (ht : exec .softReset s = .next t) (hs : P s) : P t := by
  cases ht
  split
  · exact h.resetNext s hs
  · split
    · exact hs
    · split
      · exact h.takeSoftReset _ s hs
      · exact hs

/-! ## Time -/

theorem MotionClosed.cycleEvent (s : State) (hs : P s) : P s.cycleEvent :=
  h.recedes hs (recedes_cycleEvent (h.sound hs))

theorem MotionClosed.tick (s : State) (hs : P s) : P s.tick := by
  have hsettled := h.settle _ (h.finishResets s hs)
  have hclock := h.recedes hsettled (recedes_advanceClock _)
  unfold State.tick
  dsimp only
  split
  · exact h.cycleEvent _ hclock
  · exact hclock

theorem MotionClosed.cycleStart (s : State) (hs : P s) : P s.finishResets.settle.elapse.cycleEvent :=
  h.cycleEvent _ (h.recedes (h.settle _ (h.finishResets s hs)) (recedes_elapse _))

/-! ## Events -/

theorem MotionClosed.execAxisLost {a : AxisIx} {s t : State} (ht : exec (.axisLost a) s = .next t) (hs : P s) : P t := by
  cases ht
  rw [touch_sound _ _ _ (h.sound hs)]
  split
  · exact h.settle _ (h.recedes hs (recedes_becomeLost a (h.sound hs)))
  · exact hs

theorem MotionClosed.execPrimeExpired {g : GroupIx} {s t : State} (ht : exec (.primeExpired g) s = .next t)
    (hs : P s) : P t := by
  cases ht
  split
  · next hp =>
    obtain ⟨hst, -⟩ := hp
    exact h.recedes hs (recedes_disarm .primeExpired fun hl => absurd (hst.symm.trans hl) nofun)
  · exact hs

theorem MotionClosed.execLapsed {g : GroupIx} {s t : State} (ht : exec (.lapsed g) s = .next t) (hs : P s) : P t := by
  cases ht
  split
  · exact h.settle _ (h.trip _ s hs)
  · exact hs

theorem MotionClosed.execSample {sg : SegIx} {s t : State} (ht : exec (.sample sg) s = .next t) (hs : P s) : P t := by
  cases ht
  split
  · exact h.settle _ (h.takeSample _ _ (h.recedes hs (Recedes.of_eq rfl rfl)))
  · exact hs

theorem MotionClosed.execEcho {sg : SegIx} {s t : State} (ht : exec (.echo sg) s = .next t) (hs : P s) : P t := by
  cases ht
  split
  · next f rest _ =>
    have hpop : P { s with paths := { s.paths with echo := s.paths.echo.set sg rest } } := h.recedes hs (Recedes.of_eq rfl rfl)
    exact h.settle _ (h.recedes hpop (recedes_takeEcho sg f (h.sound hpop)))
  · exact hs

theorem MotionClosed.execTripRequest {w : TripSender} {s t : State} (ht : exec (.tripRequest w) s = .next t)
    (hs : P s) : P t := by
  cases ht
  split
  · exact hs
  · split
    · exact h.settle _ (h.trip _ _ (h.recedes hs (Recedes.of_eq rfl rfl)))
    · exact hs

theorem MotionClosed.execClTransmissionEnd {s t : State} (ht : exec .clTransmissionEnd s = .next t) (hs : P s) :
    P t := by
  cases ht
  split
  · exact h.recedes hs (recedes_calmer (ClSide.calmer_endTransmission _ s.cl))
  · exact hs

/-- The events of the units themselves that may end in a settled state that recedes. -/
theorem MotionClosed.eventIf {s u : State} (p : Prop) [Decidable p] (hs : P s) (hu : Recedes s u) :
    P (if p then u else s) := by
  split
  · exact h.recedes hs hu
  · exact hs

omit h in
/-- A row that takes requests serves each of its own by the work of the request's block. -/
theorem exec_serves (d : Demand) (hd : d ≠ .softReset) (s : State) :
    ∃ handle : Demand → Option (State → Answer), exec d.command s = .next (s.serve handle) ∧
      ∀ e w, handle e = some w → w = Machine.requestWork e := by
  cases d
  case softReset => exact absurd rfl hd
  all_goals
    refine ⟨_, rfl, fun e w he => ?_⟩
    split at he
    · cases he
      rfl
    · cases he

theorem MotionClosed.request (d : Demand) (hd : d ≠ .softReset) {s t : State} (ht : exec d.command s = .next t)
    (hs : P s) : P t := by
  obtain ⟨handle, hexec, hwork⟩ := exec_serves d hd s
  rw [hexec] at ht
  cases ht
  exact h.serve hwork s hs

omit h in
theorem recedes_settled {s u : State} (hs : s.Sound) (hu : Recedes s u) : Recedes s u.settle :=
  hu.trans (recedes_settle (hu.sound hs))

theorem MotionClosed.exec (c : Instr) {s t : State} (ht : Machine.exec c s = .next t) (hs : P s) : P t := by
  have hsound := h.sound hs
  cases c with
  | pinReset pins =>
    cases ht
    exact h.pinReset pins s hs
  | cycleStart =>
    cases ht
    exact h.cycleStart s hs
  | axisLost a => exact h.execAxisLost ht hs
  | primeExpired g => exact h.execPrimeExpired ht hs
  | lapsed g => exact h.execLapsed ht hs
  | noEcho sg =>
    cases ht
    exact h.eventIf _ hs (recedes_endCheck sg _ _ s)
  | creepRunEnd g =>
    cases ht
    exact h.eventIf _ hs (recedes_settled hsound (recedes_finishCreep g hsound))
  | segmentDown sg =>
    cases ht
    exact h.eventIf _ hs (recedes_settled hsound (recedes_segmentLoss sg hsound))
  | clDown =>
    cases ht
    exact h.eventIf _ hs (recedes_clLoss hsound)
  | clFrameReceive bytes =>
    cases ht
    exact h.recedes hs (recedes_receiveCl bytes s)
  | segmentFrameReceive sg bytes =>
    cases ht
    exact h.recedes hs (recedes_receiveSeg sg bytes s)
  | setpointPosition =>
    cases ht
    exact h.takeSetpoint (fun a p s _ hs => h.admitPosition a p s hs) s hs
  | setpointHold =>
    cases ht
    exact h.takeSetpoint (fun a p s hm hs => h.admitHold a p s (by rw [hm]; exact nofun) hs) s hs
  | setpointBrake =>
    cases ht
    exact h.takeSetpoint (fun a p s hm hs => h.admitBrake a p s (by rw [hm]; exact nofun) hs) s hs
  | sample sg => exact h.execSample ht hs
  | echo sg => exact h.execEcho ht hs
  | tripRequest sender => exact h.execTripRequest ht hs
  | inputLevelChange line level =>
    cases ht
    exact h.recedes hs (recedes_changeLevel line level s)
  | segmentTransmissionEnd sg =>
    cases ht
    exact h.settle _ (h.recedes hs (Recedes.of_eq rfl rfl))
  | clTransmissionEnd => exact h.execClTransmissionEnd ht hs
  | unknownRequest => exact h.request .unknown nofun ht hs
  | readEntryAxis => exact h.request (.readAxis 0) nofun ht hs
  | readEntryGroup => exact h.request (.readGroup 0) nofun ht hs
  | readEntryPair => exact h.request (.readPair 0) nofun ht hs
  | readEntryExtent => exact h.request (.readExtent 0) nofun ht hs
  | readEntryZone => exact h.request (.readZone 0) nofun ht hs
  | readEntryWaypoint => exact h.request (.readWaypoint 0) nofun ht hs
  | readEntryInput => exact h.request (.readInput 0) nofun ht hs
  | readEntrySettings => exact h.request (.readSettings 0) nofun ht hs
  | readEntrySchedule => exact h.request (.readSchedule 0) nofun ht hs
  | writeEntryAxis => exact h.request (.writeAxis 0 .default) nofun ht hs
  | writeEntryGroup => exact h.request (.writeGroup 0 .default) nofun ht hs
  | writeEntryPair => exact h.request (.writePair 0 .default) nofun ht hs
  | writeEntryExtent => exact h.request (.writeExtent 0 .default) nofun ht hs
  | writeEntryZone => exact h.request .writeZone nofun ht hs
  | writeEntryWaypoint => exact h.request (.writeWaypoint 0 none) nofun ht hs
  | writeEntryInput => exact h.request (.writeInput 0 0 0) nofun ht hs
  | writeEntrySettings => exact h.request (.writeSettings 0 .default) nofun ht hs
  | writeEntrySchedule => exact h.request (.writeSchedule 0 0) nofun ht hs
  | permitKeyKArm => exact h.request (.keyArm 0) nofun ht hs
  | permitKeyKRun => exact h.request (.keyRun 0) nofun ht hs
  | permitKeyOther => exact h.request (.keyOther 0) nofun ht hs
  | park => exact h.request (.park 0) nofun ht hs
  | forceTrip => exact h.request (.forceTrip 0) nofun ht hs
  | clearTrip => exact h.request (.clearTrip 0) nofun ht hs
  | claimZone => exact h.request (.claimZone 0 0) nofun ht hs
  | releaseZone => exact h.request (.releaseZone 0 0) nofun ht hs
  | linkCheck => exact h.request (.linkCheck 0) nofun ht hs
  | creepStart => exact h.request (.creepStart 0 0) nofun ht hs
  | creepStop => exact h.request (.creepStop 0) nofun ht hs
  | creepResult => exact h.request (.creepResult 0) nofun ht hs
  | loadSchedule => exact h.request .loadSchedule nofun ht hs
  | readTripRecord => exact h.request .readTripRecord nofun ht hs
  | rewindTripRecords => exact h.request .rewindTripRecords nofun ht hs
  | readStatus => exact h.request (.readStatus 0) nofun ht hs
  | clearCounters => exact h.request .clearCounters nofun ht hs
  | softReset => exact h.execSoftReset ht hs

/-- Every step keeps what receding and the changes of motion keep. -/
theorem MotionClosed.step {s t : State} (ht : Machine.step s = .next t) (hs : P s) : P t := by
  unfold Machine.step at ht
  split at ht
  · cases ht
    exact h.tick s hs
  · exact h.exec _ ht (h.recedes hs (Recedes.of_eq rfl rfl))

end

end Sys2Proof.Machine
end

section
/-! SUPPORT. A law that the changes of motion keep along another one, and the laws of the tables among them. -/

namespace Sys2Proof.Machine

/-- The changes of motion keep B as long as A holds; a change that B does not speak of keeps it as it stands. -/
structure MotionAlong (A B : State → Prop) : Prop where
  recedes : ∀ {s t : State}, A s → B s → Recedes s t → B t
  arm : ∀ g s, A s → B s → s.MayArm g → B (s.modPermit g fun p => { p with
    state := .primed, lapse := s.tables.groups[g].held.primeWindow, halfDone := false }) := by
      exact fun _ _ _ hs _ => hs
  run : ∀ g s, A s → B s → s.permitState g = .primed → B (s.modPermit g fun p => { p with
    state := .live, lapse := s.tables.groups[g].held.serviceInterval, halfDone := false }) := by
      exact fun _ _ _ hs _ => hs
  service : ∀ g s, A s → B s → s.permitState g = .live →
    B (s.modPermit g fun p => { p with lapse := s.tables.groups[g].held.serviceInterval, halfDone := false }) := by
      exact fun _ _ _ hs _ => hs
  storeAxis : ∀ a f s, A s → B s → s.axisWriteOk a f → s.lockedGroup (s.groupOf a) = false → B (s.storeAxis a f)
  storeGroup : ∀ g f s, A s → B s → s.groupWriteOk g f → s.permitState g = .disarmed → B (s.storeGroup g f) := by
    exact fun _ _ _ _ hs _ _ => hs
  storePair : ∀ p f s, A s → B s → B (s.storePair p f) := by exact fun _ _ _ _ hs => hs
  storeExtent : ∀ (x : ExtentIx) (f : ExtentFields) s, A s → B s → (f.valid = true → s.lockedAxis f.axis = false) →
    B (s.modTables fun t => { t with extents := t.extents.set x (.fresh f.stored) }) := by
      exact fun _ _ _ _ hs _ => hs
  claim : ∀ (z : ZoneIx) g s, A s → B s → s.zones[z] = none → B { s with zones := s.zones.set z (some g) } := by
    exact fun _ _ _ _ hs _ => hs
  release : ∀ (z : ZoneIx) g s, A s → B s → s.zones[z] = some g → B { s with
    zones := s.zones.set z none
    egress := { s.egress with setpoints := s.egress.setpoints.map (List.filter fun e => !(s.travelsInto z g e)) } } := by
      exact fun _ _ _ _ hs _ => hs
  enqueueRest : ∀ e s, A s → B s → e.mode ≠ .position → s.tables.axes[e.axis].held.valid = true →
    s.tables.axes[e.axis].poisoned = false → B (s.enqueue e)
  enqueuePosition : ∀ e s, A s → B s → s.MayMove e → B (s.enqueue e)
  forward : ∀ (sg : SegIx) (e : ForwardEntry) s, A s → B s → s.tables.axes[e.axis].poisoned = false →
    s.tables.axes[e.axis].held.forward = true → segOfByte s.tables.axes[e.axis].held.segment = some sg →
    B { s with cl := { s.cl with forward := upd s.cl.forward sg (placeForward e) } } := by
      exact fun _ _ _ _ hs _ _ _ => hs
  beginReset : ∀ s, A s → B s → s.validNotDisarmed = none → B s.beginReset := by exact fun _ _ hs _ => hs
  resetBlock : ∀ b s, A s → B s → b ≠ .trip → s.resets ≠ [] → B (s.resetBlock b)
  pinReset : ∀ pins s, A s → B s → B (s.pinReset pins)

theorem MotionAlong.closed {A B : State → Prop} (hA : MotionClosed A) (h : MotionAlong A B) :
    MotionClosed fun s => A s ∧ B s where
  sound := fun hs => hA.sound hs.1
  recedes := fun hs hr => ⟨hA.recedes hs.1 hr, h.recedes hs.1 hs.2 hr⟩
  arm := fun g s hs hm => ⟨hA.arm g s hs.1 hm, h.arm g s hs.1 hs.2 hm⟩
  run := fun g s hs hp => ⟨hA.run g s hs.1 hp, h.run g s hs.1 hs.2 hp⟩
  service := fun g s hs hl => ⟨hA.service g s hs.1 hl, h.service g s hs.1 hs.2 hl⟩
  storeAxis := fun a f s hs hok hl => ⟨hA.storeAxis a f s hs.1 hok hl, h.storeAxis a f s hs.1 hs.2 hok hl⟩
  storeGroup := fun g f s hs hok hd => ⟨hA.storeGroup g f s hs.1 hok hd, h.storeGroup g f s hs.1 hs.2 hok hd⟩
  storePair := fun p f s hs => ⟨hA.storePair p f s hs.1, h.storePair p f s hs.1 hs.2⟩
  storeExtent := fun x f s hs hl => ⟨hA.storeExtent x f s hs.1 hl, h.storeExtent x f s hs.1 hs.2 hl⟩
  claim := fun z g s hs hz => ⟨hA.claim z g s hs.1 hz, h.claim z g s hs.1 hs.2 hz⟩
  release := fun z g s hs hz => ⟨hA.release z g s hs.1 hz, h.release z g s hs.1 hs.2 hz⟩
  enqueueRest := fun e s hs hm hv hp => ⟨hA.enqueueRest e s hs.1 hm hv hp, h.enqueueRest e s hs.1 hs.2 hm hv hp⟩
  enqueuePosition := fun e s hs hm => ⟨hA.enqueuePosition e s hs.1 hm, h.enqueuePosition e s hs.1 hs.2 hm⟩
  forward := fun sg e s hs hp hf hsg => ⟨hA.forward sg e s hs.1 hp hf hsg, h.forward sg e s hs.1 hs.2 hp hf hsg⟩
  beginReset := fun s hs hd => ⟨hA.beginReset s hs.1 hd, h.beginReset s hs.1 hs.2 hd⟩
  resetBlock := fun b s hs hb hr => ⟨hA.resetBlock b s hs.1 hb hr, h.resetBlock b s hs.1 hs.2 hb hr⟩
  pinReset := fun pins s hs => ⟨hA.pinReset pins s hs.1, h.pinReset pins s hs.1 hs.2⟩

/-! ## The laws of the tables -/

/-- A law of the tables' entries alone. -/
theorem TableLaw.motionAlong {P A : State → Prop} (h : TableLaw P)
    (hrec : ∀ {s t : State}, P s → SameEntries s.tables t.tables → P t) : MotionAlong A P where
  recedes := fun _ hs hr => hrec hs hr.entries
  arm := fun _ _ _ hs _ => h.of_tables hs rfl
  run := fun _ _ _ hs _ => h.of_tables hs rfl
  service := fun _ _ _ hs _ => h.of_tables hs rfl
  storeAxis := fun a f s _ hs hok _ => h.workClosed.stored a f s hok hs
  storeGroup := fun g f s _ hs hok _ => h.of_tables (h.storeGroup g f s hok hs) rfl
  storePair := fun p f s _ hs => h.workClosed.storePairState p f s hs
  storeExtent := fun x f s _ hs _ => h.storeExtent x f.stored s hs
  claim := fun _ _ _ _ hs _ => h.of_tables hs rfl
  release := fun _ _ _ _ hs _ => h.of_tables hs rfl
  enqueueRest := fun e s _ hs _ _ _ => h.of_tables hs (enqueue_tables e s)
  enqueuePosition := fun e s _ hs _ => h.of_tables hs (enqueue_tables e s)
  forward := fun _ _ _ _ hs _ _ _ => h.of_tables hs rfl
  beginReset := fun _ _ hs _ => h.of_tables hs rfl
  resetBlock := fun b s _ hs hb _ => h.resetBlock b s hb hs
  pinReset := fun pins s _ hs => h.stepClosed.pinReset pins s hs

theorem WrittenLaw.motionAlong {P A : State → Prop} (h : WrittenLaw P) : MotionAlong A P :=
  h.tableLaw.motionAlong fun hs he => h.later hs (TableStore.later_of_eq he.axes he.groups he.index)

theorem Sound.of_entries {s t : State} (hs : s.Sound) (he : SameEntries s.tables t.tables) : t.Sound := by
  refine Sound.of_records hs (fun a => .inl ?_) (fun g => .inl ?_) (fun p => .inl ?_) (fun x => .inl ?_)
  · rw [he.axes]
  · rw [he.groups]
  · rw [he.pairs]
  · rw [he.extents]

theorem sound_motionAlong {A : State → Prop} : MotionAlong A State.Sound :=
  sound_tableLaw.motionAlong Sound.of_entries

/-- Every change of motion keeps a state in which no record shows an error so. -/
theorem sound_motionClosed : MotionClosed State.Sound where
  sound := id
  recedes := fun hs hr => hr.sound hs
  arm := fun g s hs hm => sound_motionAlong.arm g s hs hs hm
  run := fun g s hs hp => sound_motionAlong.run g s hs hs hp
  service := fun g s hs hl => sound_motionAlong.service g s hs hs hl
  storeAxis := fun a f s hs hok hl => sound_motionAlong.storeAxis a f s hs hs hok hl
  storeGroup := fun g f s hs hok hd => sound_motionAlong.storeGroup g f s hs hs hok hd
  storePair := fun p f s hs => sound_motionAlong.storePair p f s hs hs
  storeExtent := fun x f s hs hl => sound_motionAlong.storeExtent x f s hs hs hl
  claim := fun z g s hs hz => sound_motionAlong.claim z g s hs hs hz
  release := fun z g s hs hz => sound_motionAlong.release z g s hs hs hz
  enqueueRest := fun e s hs hm hv hp => sound_motionAlong.enqueueRest e s hs hs hm hv hp
  enqueuePosition := fun e s hs hm => sound_motionAlong.enqueuePosition e s hs hs hm
  forward := fun sg e s hs hp hf hsg => sound_motionAlong.forward sg e s hs hs hp hf hsg
  beginReset := fun s hs hd => sound_motionAlong.beginReset s hs hs hd
  resetBlock := fun b s hs hb hr => sound_motionAlong.resetBlock b s hs hs hb hr
  pinReset := fun pins s hs => sound_motionAlong.pinReset pins s hs hs

end Sys2Proof.Machine
end

section
/-! SUPPORT. What arming, a block's soft reset and a write leave, in the terms of the laws of motion. -/

namespace Sys2Proof.Machine

/-! ## Entries of a state that shows no error -/

theorem Stored.settled.good {F : Type} {r : Stored F} (h : r.settled) (hp : r.poisoned = false) : r.good := by
  refine ⟨hp, fun hu => ?_⟩
  unfold Stored.settled at h
  simp [hp, hu] at h

/-- An entry not poisoned holds what the last write stored. -/
theorem Sound.axis_held {s : State} (h : s.Sound) {a : AxisIx} (hp : s.tables.axes[a].poisoned = false) :
    s.tables.axes[a].good ∧ s.tables.axes[a].intended = s.tables.axes[a].held := by
  have hset := Sound.axis_settled h a
  exact ⟨hset.good hp, (hset.held_eq (hset.good hp)).symm⟩

theorem Sound.group_held {s : State} (h : s.Sound) {g : GroupIx} (hp : s.tables.groups[g].poisoned = false) :
    s.tables.groups[g].good ∧ s.tables.groups[g].intended = s.tables.groups[g].held := by
  have hset := Sound.group_settled h g
  exact ⟨hset.good hp, (hset.held_eq (hset.good hp)).symm⟩

/-! ## Permits -/

theorem modPermit_get (g : GroupIx) (f : Permit → Permit) (s : State) (k : GroupIx) :
    (s.modPermit g f).permits[k] = if g = k then f s.permits[k] else s.permits[k] := by
  rw [State.modPermit_permits, upd_get]
  exact if_ctx_congr Iff.rfl (fun h => by rw [h]) fun _ => rfl

theorem modPermit_permitState (g : GroupIx) (f : Permit → Permit) (s : State) (k : GroupIx) :
    (s.modPermit g f).permitState k = if g = k then (f s.permits[k]).state else s.permitState k := by
  unfold State.permitState
  rw [modPermit_get, apply_ite Permit.state]

/-- A group armed after a change of g's permit that was not g was armed before. -/
theorem armed_modPermit_ne {g k : GroupIx} {f : Permit → Permit} {s : State} (hne : g ≠ k) :
    (s.modPermit g f).armed k ↔ s.armed k := by
  unfold State.armed
  rw [modPermit_permitState, if_neg hne]

theorem State.armed.not_disarmed {s : State} {g : GroupIx} (h : s.armed g) : s.permitState g ≠ .disarmed := by
  rcases h with h | h <;> rw [h] <;> nofun

/-! ## Soft reset of a block, and pin reset -/

theorem resetBlock_permits {b : ResetBlock} (hb : b ≠ .trip) (s : State) :
    (s.resetBlock b).permits = s.permits ∨ ∀ g : GroupIx, (s.resetBlock b).permitState g = .disarmed := by
  cases b with
  | permit => exact .inr fun g => congrArg Permit.state (replicate_get Permit.reset g)
  | trip => exact absurd rfl hb
  | port p => cases p <;> exact .inl rfl
  | _ => exact .inl rfl

theorem resetBlock_entries {b : ResetBlock} (hb : b ≠ .trip) (s : State) :
    SameEntries s.tables (s.resetBlock b).tables := by
  cases b with
  | trip => exact absurd rfl hb
  | port p => cases p <;> exact SameEntries.refl _
  | _ => exact ⟨rfl, rfl, rfl, rfl, rfl⟩

theorem resetBlock_shrinks {b : ResetBlock} (hb : b ≠ .trip) (s : State) : Shrinks s (s.resetBlock b) := by
  cases b with
  | trip => exact absurd rfl hb
  | port p => cases p <;> exact Shrinks.refl s
  | monitor =>
    refine ⟨fun _ => .refl _, fun sg => ?_⟩
    rw [show (s.resetBlock .monitor).cl.forward[sg] = [] from replicate_get [] sg]
    exact List.nil_sublist _
  | admission =>
    refine ⟨fun sg => ?_, fun _ => .refl _⟩
    rw [show (s.resetBlock .admission).egress.setpoints[sg] = [] from replicate_get [] sg]
    exact List.nil_sublist _
  | _ => exact Shrinks.refl s

/-- A block's soft reset arms no group. -/
theorem armed_resetBlock {b : ResetBlock} (hb : b ≠ .trip) {s : State} {g : GroupIx} (h : (s.resetBlock b).armed g) :
    s.armed g ∧ (s.resetBlock b).permits = s.permits := by
  rcases resetBlock_permits hb s with hp | hd
  · refine ⟨h.of_state ?_, hp⟩
    unfold State.permitState
    rw [hp]
  · exact absurd (hd g) h.not_disarmed

theorem pinReset_unarmed (pins : Vector Level 8) (s : State) (g : GroupIx) : ¬ (s.pinReset pins).armed g :=
  fun h => h.not_disarmed (reset_permitState g)

/-! ## A write of an axis entry -/

theorem storeAxis_groupOf (s : State) (a : AxisIx) (f : AxisFields) (b : AxisIx) :
    (s.storeAxis a f).groupOf b = s.groupOf b := by
  rw [storeAxis_frame]
  rfl

theorem storeAxis_permits (s : State) (a : AxisIx) (f : AxisFields) : (s.storeAxis a f).permits = s.permits := by
  rw [storeAxis_frame]

theorem storeAxis_armed {s : State} {a : AxisIx} {f : AxisFields} {g : GroupIx} :
    (s.storeAxis a f).armed g ↔ s.armed g := by
  unfold State.armed State.permitState
  rw [storeAxis_permits]

theorem storeAxis_axes {s : State} {a b : AxisIx} (f : AxisFields) (h : b ≠ a) :
    (s.storeAxis a f).tables.axes[b] = s.tables.axes[b] := by
  rw [storeAxis_frame]
  exact (set_get _ _ _ _).trans (if_neg h.symm)

/-- An axis that belongs to an armed group is locked. -/
theorem ne_of_locked {s : State} {a b : AxisIx} {g : GroupIx} (hl : s.lockedGroup (s.groupOf a) = false)
    (hg : s.groupOf b = some g) (h : s.armed g) : b ≠ a := by
  rintro rfl
  rw [hg] at hl
  exact h.not_disarmed (by simpa [State.lockedGroup] using hl)

end Sys2Proof.Machine
end

section
/-! PROOF. Counters stay in their ranges (O56). -/

namespace Sys2Proof.Machine

/-! ## An armed group has a valid entry -/

/-- What the bounds of a lapse counter need of ArmedLaw. -/
def State.ArmedValid (s : State) : Prop :=
  ∀ g : GroupIx, s.armed g → s.tables.groups[g].held.valid = true ∧ s.tables.groups[g].poisoned = false

theorem ArmedLaw.armedValid {s : State} (h : ArmedLaw s) : s.ArmedValid := fun g hg => by
  obtain ⟨-, hvalid, hclean, -⟩ := h g hg
  exact ⟨hvalid, hclean⟩

theorem State.ArmedValid.of_groups {s t : State} (h : s.ArmedValid) (hg : t.tables.groups = s.tables.groups)
    (ha : ∀ g, t.armed g → s.armed g) : t.ArmedValid := fun g ht => by
  rw [hg]
  exact h g (ha g ht)

theorem armedValid_motionAlong {A : State → Prop} : MotionAlong A State.ArmedValid where
  recedes := fun _ hs hr => hs.of_groups hr.entries.groups fun _ => hr.armed
  arm := fun g s _ hs hm k hk => by
    by_cases hgk : g = k
    · subst hgk
      exact ⟨hm.valid, hm.clean _ List.mem_cons_self⟩
    · exact hs k ((armed_modPermit_ne hgk).mp hk)
  run := fun g s _ hs hp => hs.of_groups rfl fun k hk => by
    by_cases hgk : g = k
    · exact .inl (hgk ▸ hp)
    · exact (armed_modPermit_ne hgk).mp hk
  service := fun g s _ hs hl => hs.of_groups rfl fun k hk => by
    by_cases hgk : g = k
    · exact .inr (hgk ▸ hl)
    · exact (armed_modPermit_ne hgk).mp hk
  storeAxis := fun a f s _ hs _ _ => hs.of_groups (by rw [storeAxis_frame]) fun _ => storeAxis_armed.mp
  storeGroup := fun g f s _ hs _ hd k hk => by
    have hne : g ≠ k := fun hgk => State.armed.not_disarmed (s := s) hk (hgk ▸ hd)
    have hget : (s.storeGroup g f).tables.groups[k] = s.tables.groups[k] := (set_get _ _ _ _).trans (if_neg hne)
    rw [hget]
    exact hs k hk
  enqueueRest := fun e s _ hs _ _ _ => by
    rw [enqueue_frame]
    exact hs
  enqueuePosition := fun e s _ hs _ => by
    rw [enqueue_frame]
    exact hs
  resetBlock := fun b s _ hs hb _ =>
    hs.of_groups (resetBlock_entries hb s).groups fun _ hk => (armed_resetBlock hb hk).1
  pinReset := fun pins s _ _ g hg => absurd hg (pinReset_unarmed pins s g)

/-! ## The bounds of a lapse counter -/

/-- The ranges of R9 hold of a valid group entry that is not poisoned. -/
theorem RangeLaw.held_inRange {s : State} (h : RangeLaw s) (hs : s.Sound) {g : GroupIx}
    (hv : s.tables.groups[g].held.valid = true) (hp : s.tables.groups[g].poisoned = false) :
    s.tables.groups[g].held.inRange g = true := by
  obtain ⟨hgood, heq⟩ := Sound.group_held hs hp
  rw [← heq] at hv ⊢
  exact h g hgood hv

theorem GroupFields.inRange_windows {f : GroupFields} {g : GroupIx} (h : f.inRange g = true) :
    1 ≤ f.primeWindow.toNat ∧ 1 ≤ f.serviceInterval.toNat := by
  simp only [GroupFields.inRange, Bool.and_eq_true, decide_eq_true_eq, bne_iff_ne] at h
  have hs : 2 ≤ f.serviceInterval.toNat := by tauto
  have hw : f.primeWindow ≠ 0 := by tauto
  have hw : f.primeWindow.toNat ≠ 0 := fun h0 => hw (BitVec.eq_of_toNat_eq h0)
  omega

/-- The bounds that R97 gives one group's counter. -/
def Permit.Bounded (p : Permit) (f : GroupFields) : Prop :=
  (p.state = .primed → 1 ≤ p.lapse.toNat ∧ p.lapse.toNat ≤ f.primeWindow.toNat) ∧
    (p.state = .live → 1 ≤ p.lapse.toNat ∧ p.lapse.toNat ≤ f.serviceInterval.toNat)

theorem lapseBoundLaw_iff {s : State} :
    LapseBoundLaw s ↔ ∀ g : GroupIx, s.permits[g].Bounded s.tables.groups[g].held := Iff.rfl

theorem Permit.Bounded.stays {p q : Permit} {f : GroupFields} (h : p.Bounded f) (hq : PermitStays p q) :
    q.Bounded f := by
  obtain ⟨hprimed, hlive⟩ := h
  constructor
  · intro hst
    obtain ⟨hlow, hhigh⟩ := hprimed (hq.state.symm.trans hst)
    obtain ⟨h1, h2⟩ := hq.lapse hlow
    exact ⟨h1, h2.trans hhigh⟩
  · intro hst
    obtain ⟨hlow, hhigh⟩ := hlive (hq.state.symm.trans hst)
    obtain ⟨h1, h2⟩ := hq.lapse hlow
    exact ⟨h1, h2.trans hhigh⟩

theorem permit_bounded_of_unarmed {s : State} {g : GroupIx} (h : ¬ s.armed g) (f : GroupFields) :
    s.permits[g].Bounded f :=
  ⟨fun hp => absurd (.inl hp) h, fun hl => absurd (.inr hl) h⟩

/-- A change of g's permit that leaves it in bounds. -/
theorem LapseBoundLaw.modPermit {s : State} (h : LapseBoundLaw s) {g : GroupIx} {f : Permit → Permit}
    (hf : (f s.permits[g]).Bounded s.tables.groups[g].held) : LapseBoundLaw (s.modPermit g f) := by
  rw [lapseBoundLaw_iff] at h ⊢
  intro k
  rw [modPermit_get, State.modPermit_tables]
  split
  · next hgk =>
    subst hgk
    exact hf
  · exact h k

/-- The permits and the group entries are all that the bounds speak of. -/
theorem LapseBoundLaw.of_same {s t : State} (h : LapseBoundLaw s) (hp : t.permits = s.permits)
    (hg : t.tables.groups = s.tables.groups) : LapseBoundLaw t := by
  rw [lapseBoundLaw_iff] at h ⊢
  rw [hp, hg]
  exact h

theorem lapseBoundLaw_motionAlong :
    MotionAlong (fun s => (s.Sound ∧ RangeLaw s) ∧ s.ArmedValid) LapseBoundLaw where
  recedes := fun {s t} _ hs hr => by
    rw [lapseBoundLaw_iff] at hs ⊢
    intro g
    rw [hr.entries.groups]
    by_cases hg : t.armed g
    · exact (hs g).stays (hr.stays hg)
    · exact permit_bounded_of_unarmed hg _
  arm := fun g s ⟨⟨hsound, hrange⟩, _⟩ hs hm => by
    obtain ⟨hwindow, -⟩ :=
      GroupFields.inRange_windows (hrange.held_inRange hsound hm.valid (hm.clean _ List.mem_cons_self))
    exact hs.modPermit ⟨fun _ => ⟨hwindow, Nat.le_refl _⟩, nofun⟩
  run := fun g s ⟨⟨hsound, hrange⟩, harmed⟩ hs hp => by
    obtain ⟨hvalid, hclean⟩ := harmed g (.inl hp)
    obtain ⟨-, hinterval⟩ := GroupFields.inRange_windows (hrange.held_inRange hsound hvalid hclean)
    exact hs.modPermit ⟨nofun, fun _ => ⟨hinterval, Nat.le_refl _⟩⟩
  service := fun g s ⟨⟨hsound, hrange⟩, harmed⟩ hs hl => by
    obtain ⟨hvalid, hclean⟩ := harmed g (.inr hl)
    obtain ⟨-, hinterval⟩ := GroupFields.inRange_windows (hrange.held_inRange hsound hvalid hclean)
    exact hs.modPermit ⟨fun hp => absurd (hl.symm.trans hp) nofun, fun _ => ⟨hinterval, Nat.le_refl _⟩⟩
  storeAxis := fun a f s _ hs _ _ => hs.of_same (storeAxis_permits s a f) (by rw [storeAxis_frame])
  storeGroup := fun g f s _ hs _ hd => by
    rw [lapseBoundLaw_iff] at hs ⊢
    intro k
    have hget : (s.storeGroup g f).tables.groups[k] = if g = k then .fresh f.stored else s.tables.groups[k] :=
      set_get _ _ _ _
    by_cases hgk : g = k
    · subst hgk
      exact permit_bounded_of_unarmed (s := s.storeGroup g f)
        (fun ha => State.armed.not_disarmed (s := s) ha hd) _
    · rw [hget, if_neg hgk]
      exact hs k
  enqueueRest := fun e s _ hs _ _ _ => by
    rw [enqueue_frame]
    exact hs
  enqueuePosition := fun e s _ hs _ => by
    rw [enqueue_frame]
    exact hs
  resetBlock := fun b s _ hs hb _ => by
    rcases resetBlock_permits hb s with hp | hd
    · exact hs.of_same hp (resetBlock_entries hb s).groups
    · exact fun g => permit_bounded_of_unarmed (fun h => h.not_disarmed (hd g)) _
  pinReset := fun pins s _ _ g => permit_bounded_of_unarmed (pinReset_unarmed pins s g) _

/-- While no record shows an error, the lapse counters stay in the bounds of R97, along with what they depend on. -/
theorem lapseBound_motionClosed :
    MotionClosed fun s => ((s.Sound ∧ RangeLaw s) ∧ s.ArmedValid) ∧ LapseBoundLaw s :=
  lapseBoundLaw_motionAlong.closed
    (armedValid_motionAlong.closed (rangeLaw_writtenLaw.motionAlong.closed sound_motionClosed))

/-- Settles O56: each counter's law is kept by every change of its own part of the state; the bounds of a running lapse
counter come from the ranges of a valid group entry. -/
theorem countersStayInRange : Obligations.CountersStayInRange := by
  refine ⟨fun s t hs hstep => ?lapse, fun s t hs hstep => ?range, fun s t hsound hrange harmed hs hstep => ?bound,
    fun s t hs hstep => ?timer, fun s t hs hstep => ?schedule⟩
  case lapse => exact lapseLaw_partLaw.stepClosed.step s t hstep hs
  case range => exact rangeLaw_writtenLaw.tableLaw.stepClosed.step s t hstep hs
  case bound =>
    obtain ⟨-, hbound⟩ := lapseBound_motionClosed.step hstep ⟨⟨⟨hsound, hrange⟩, harmed.armedValid⟩, hs⟩
    exact hbound
  case timer => exact timerLaw_partLaw.stepClosed.step s t hstep hs
  case schedule => exact scheduleLaw_partLaw.stepClosed.step s t hstep hs

end Sys2Proof.Machine
end

section
/-! PROOF. Queues stay within their bounds (O57). -/

namespace Sys2Proof.Machine

/-! ## The queues under each change -/

theorem mem_placeSetpoint {x e : SetpointEntry} {l : List SetpointEntry} (h : x ∈ placeSetpoint e l) :
    x = e ∨ x ∈ l := by
  unfold placeSetpoint at h
  split at h
  · obtain ⟨y, hy, rfl⟩ := List.mem_map.mp h
    split
    · exact .inl rfl
    · exact .inr hy
  · simpa [or_comm] using h

theorem mem_placeForward {x e : ForwardEntry} {l : List ForwardEntry} (h : x ∈ placeForward e l) :
    x = e ∨ x ∈ l := by
  unfold placeForward at h
  split at h
  · obtain ⟨y, hy, rfl⟩ := List.mem_map.mp h
    split
    · exact .inl rfl
    · exact .inr hy
  · simpa [or_comm] using h

/-- What waits in a segment's queue after an entry joins was there before, or is the entry, on its own segment. -/
theorem mem_enqueue {s : State} {e q : SetpointEntry} {sg : SegIx} (h : q ∈ (s.enqueue e).egress.setpoints[sg]) :
    q ∈ s.egress.setpoints[sg] ∨ q = e ∧ segOfByte s.tables.axes[e.axis].held.segment = some sg := by
  cases hsg : segOfByte s.tables.axes[e.axis].held.segment with
  | none =>
    rw [enqueue_unmapped hsg] at h
    exact .inl h
  | some k =>
    rw [enqueue_mapped hsg] at h
    dsimp only at h
    rw [upd_get] at h
    split at h
    · next hk =>
      subst hk
      rcases mem_placeSetpoint h with rfl | h
      · exact .inr ⟨rfl, rfl⟩
      · exact .inl h
    · exact .inl h

theorem ClSide.calmer_withoutAxis (ctx : PostContext) (checks : Vector LinkCheck 4) (a : AxisIx) (c : ClSide) :
    c.Calmer (c.withoutAxis ctx checks a) := by
  unfold ClSide.withoutAxis
  refine ClSide.Calmer.trans ?_ (ClSide.calmer_dropAxis _ a)
  exact List.foldlRecOn (motive := fun d => c.Calmer d) _ _ (ClSide.Calmer.refl c)
    fun _ hd _ _ => hd.trans (ClSide.calmer_post _ _ _)

theorem storeAxis_shrinks (s : State) (a : AxisIx) (f : AxisFields) : Shrinks s (s.storeAxis a f) := by
  refine ⟨fun sg => ?_, fun sg => ?_⟩
  · rw [storeAxis_setpoints]
    exact List.filter_sublist
  · rw [storeAxis_cl]
    exact (ClSide.calmer_withoutAxis _ _ _ _).forward sg

/-- The entries that remain are for other axes. -/
theorem storeAxis_setpoints_axis {s : State} {a : AxisIx} {f : AxisFields} {sg : SegIx} {q : SetpointEntry}
    (h : q ∈ (s.storeAxis a f).egress.setpoints[sg]) : q.axis ≠ a := by
  rw [storeAxis_setpoints, List.mem_filter] at h
  obtain ⟨-, hne⟩ := h
  exact bne_iff_ne.mp hne

theorem storeAxis_forward_axis {s : State} {a : AxisIx} {f : AxisFields} {sg : SegIx} {e : ForwardEntry}
    (h : e ∈ (s.storeAxis a f).cl.forward[sg]) : e.axis ≠ a := by
  rw [storeAxis_cl] at h
  exact mem_withoutAxis h

/-! ## Every entry is for an axis of the segment -/

theorem QueuedLaw.setpoints {s : State} (h : QueuedLaw s) {sg : SegIx} {q : SetpointEntry}
    (hq : q ∈ s.egress.setpoints[sg]) : s.livesOn q.axis sg := (h sg).1 q hq

theorem QueuedLaw.forward {s : State} (h : QueuedLaw s) {sg : SegIx} {e : ForwardEntry}
    (he : e ∈ s.cl.forward[sg]) : s.livesOn e.axis sg := (h sg).2 e he

/-- The queues shrink and the axes that they name stay on their segments. -/
theorem QueuedLaw.of_shrinks {s t : State} (h : QueuedLaw s) (hq : Shrinks s t)
    (ht : t.tables.axes = s.tables.axes) : QueuedLaw t := by
  intro sg
  unfold State.livesOn
  rw [ht]
  exact ⟨fun q hm => h.setpoints ((hq.setpoints sg).subset hm), fun e hm => h.forward ((hq.forward sg).subset hm)⟩

theorem QueuedLaw.enqueue {s : State} (h : QueuedLaw s) {e : SetpointEntry}
    (hv : s.tables.axes[e.axis].held.valid = true) (hp : s.tables.axes[e.axis].poisoned = false) :
    QueuedLaw (s.enqueue e) := by
  intro sg
  unfold State.livesOn
  rw [enqueue_tables]
  refine ⟨fun q hq => ?_, fun x hx => ?_⟩
  · rcases mem_enqueue hq with hq | ⟨rfl, hsg⟩
    · exact h.setpoints hq
    · exact ⟨hv, hp, hsg⟩
  · rw [enqueue_frame] at hx
    exact h.forward hx

/-- An axis entry not valid holds the default contents, so its samples are not forwarded. -/
theorem AxisRangeLaw.valid_of_forward {s : State} (h : AxisRangeLaw s) (hs : s.Sound) {a : AxisIx}
    (hp : s.tables.axes[a].poisoned = false) (hf : s.tables.axes[a].held.forward = true) :
    s.tables.axes[a].held.valid = true := by
  obtain ⟨hgood, heq⟩ := Sound.axis_held hs hp
  obtain ⟨-, hdefault⟩ := h a hgood
  rw [heq] at hdefault
  by_contra hv
  rw [hdefault (Bool.eq_false_iff.mpr hv)] at hf
  cases hf

theorem queuedLaw_motionAlong : MotionAlong (fun s => s.Sound ∧ AxisRangeLaw s) QueuedLaw where
  recedes := fun _ hs hr => hs.of_shrinks hr.queues hr.entries.axes
  storeAxis := fun a f s _ hs _ _ => by
    intro sg
    have hq := storeAxis_shrinks s a f
    unfold State.livesOn
    refine ⟨fun q hm => ?_, fun e hm => ?_⟩
    · rw [storeAxis_axes f (storeAxis_setpoints_axis hm)]
      exact hs.setpoints ((hq.setpoints sg).subset hm)
    · rw [storeAxis_axes f (storeAxis_forward_axis hm)]
      exact hs.forward ((hq.forward sg).subset hm)
  release := fun z g s _ hs _ => hs.of_shrinks ⟨fun sg => map_filter_sublist _ _ sg, fun _ => .refl _⟩ rfl
  enqueueRest := fun e s _ hs _ hv hp => hs.enqueue hv hp
  enqueuePosition := fun e s _ hs hm => hs.enqueue hm.valid hm.clean
  forward := fun sg e s ⟨hsound, hrange⟩ hs hp hf hsg k => by
    refine ⟨fun q hq => hs.setpoints hq, fun x hx => ?_⟩
    dsimp only at hx
    rw [upd_get] at hx
    split at hx
    · next hk =>
      subst hk
      rcases mem_placeForward hx with rfl | hx
      · exact ⟨hrange.valid_of_forward hsound hp hf, hp, hsg⟩
      · exact hs.forward hx
    · exact hs.forward hx
  resetBlock := fun b s _ hs hb _ => hs.of_shrinks (resetBlock_shrinks hb s) (resetBlock_entries hb s).axes
  pinReset := fun _ _ _ _ => reset_queuedLaw

theorem queued_motionClosed : MotionClosed fun s => (s.Sound ∧ AxisRangeLaw s) ∧ QueuedLaw s :=
  queuedLaw_motionAlong.closed (axisRangeLaw_writtenLaw.motionAlong.closed sound_motionClosed)

/-! ## A segment has 32 stations -/

theorem AxisFields.inRange_station {f : AxisFields} (h : f.inRange = true) : isStation f.station = true := by
  simp only [AxisFields.inRange, Bool.and_eq_true] at h
  tauto

theorem AxisRangeLaw.station {s : State} (h : AxisRangeLaw s) (hs : s.Sound) {a : AxisIx} {sg : SegIx}
    (ha : s.livesOn a sg) : isStation s.tables.axes[a].held.station = true := by
  obtain ⟨hv, hp, -⟩ := ha
  obtain ⟨hgood, heq⟩ := Sound.axis_held hs hp
  obtain ⟨hrange, -⟩ := h a hgood
  rw [heq] at hrange
  exact AxisFields.inRange_station (hrange hv)

/-- Two axes of a segment hold different stations. -/
theorem StationLaw.axis_eq {s : State} (h : StationLaw s) (hs : s.Sound) {a b : AxisIx} {sg : SegIx}
    (ha : s.livesOn a sg) (hb : s.livesOn b sg)
    (hst : s.tables.axes[a].held.station = s.tables.axes[b].held.station) : a = b := by
  obtain ⟨hva, hpa, hsa⟩ := ha
  obtain ⟨hvb, hpb, hsb⟩ := hb
  obtain ⟨hga, hea⟩ := Sound.axis_held hs hpa
  obtain ⟨hgb, heb⟩ := Sound.axis_held hs hpb
  by_contra hab
  have hno := h a b hab hga hgb
  rw [hea, heb] at hno
  have hseg : s.tables.axes[a].held.segment = s.tables.axes[b].held.segment :=
    ((ixOfByte_eq_some_iff (by decide) _ _).mp hsa).trans ((ixOfByte_eq_some_iff (by decide) _ _).mp hsb).symm
  exact hno hva hvb ⟨hseg, hst⟩

/-- Distinct axes of one segment are at most as many as the stations of R161. -/
theorem length_le_of_livesOn {s : State} (hs : s.Sound) (hstation : StationLaw s) (hrange : AxisRangeLaw s)
    {sg : SegIx} {l : List AxisIx} (hnd : l.Nodup) (hl : ∀ a ∈ l, s.livesOn a sg) : l.length ≤ 32 := by
  have hstations : (l.map fun a => s.tables.axes[a].held.station.toNat).Nodup :=
    hnd.map_on fun a ha b hb hab => hstation.axis_eq hs (hl a ha) (hl b hb) (BitVec.eq_of_toNat_eq hab)
  have hsub : (l.map fun a => s.tables.axes[a].held.station.toNat) ⊆ List.range' 1 32 := by
    intro n hn
    obtain ⟨a, ha, rfl⟩ := List.mem_map.mp hn
    have hst := (isStation_iff _).mp (hrange.station hs (hl a ha))
    rw [List.mem_range'_1]
    omega
  simpa using (List.subperm_of_subset hstations hsub).length_le

/-- Settles O57: what a queue holds is for distinct axes of one segment, and those hold distinct stations. -/
theorem queuesStayWithinBounds : Obligations.QueuesStayWithinBounds := by
  refine ⟨fun s t hs hstep => ?capacity, fun s t hs hstep => ?once, fun s t hs hstep => ?range,
    fun s t hsound hrange hs hstep => ?queued, fun s hsound hstation honce hrange hqueued sg => ?stations⟩
  case capacity => exact queueLaw_partLaw.stepClosed.step s t hstep hs
  case once => exact oneEachLaw_partLaw.stepClosed.step s t hstep hs
  case range => exact axisRangeLaw_writtenLaw.tableLaw.stepClosed.step s t hstep hs
  case queued =>
    obtain ⟨-, hq⟩ := queued_motionClosed.step hstep ⟨⟨hsound, hrange⟩, hs⟩
    exact hq
  case stations =>
    obtain ⟨hset, hfwd, -⟩ := honce sg
    have hsetpoints := length_le_of_livesOn hsound hstation hrange (sg := sg) hset fun a ha => by
      obtain ⟨q, hq, rfl⟩ := List.mem_map.mp ha
      exact hqueued.setpoints hq
    have hforward := length_le_of_livesOn hsound hstation hrange (sg := sg) hfwd fun a ha => by
      obtain ⟨e, he, rfl⟩ := List.mem_map.mp ha
      exact hqueued.forward he
    rw [List.length_map] at hsetpoints hforward
    exact ⟨hsetpoints, hforward⟩

end Sys2Proof.Machine
end

section
/-! PROOF. An armed group stays checked (O60). -/

namespace Sys2Proof.Machine

/-! ## What the law asks of a group -/

/-- What R107 asks of an axis whose group is PRIMED or LIVE. -/
def State.AxisReady (s : State) (a : AxisIx) : Prop :=
  s.axisRec[a].checked = true ∧ s.axisRec[a].lost = false ∧ s.tables.axes[a].held.valid = true ∧
    s.tables.axes[a].poisoned = false ∧ (∀ p, s.pairOf a = some p → s.tables.pairs[p].poisoned = false) ∧
    ∀ x : ExtentIx, s.extentAxis x = some a → s.tables.extents[x].poisoned = false

/-- What R107 asks of a group that is PRIMED or LIVE. -/
def State.GroupReady (s : State) (g : GroupIx) : Prop :=
  s.resets = [] ∧ s.tables.groups[g].held.valid = true ∧ s.tables.groups[g].poisoned = false ∧
    ∀ a : AxisIx, s.groupOf a = some g → s.AxisReady a

theorem armedLaw_iff {s : State} : ArmedLaw s ↔ ∀ g : GroupIx, s.armed g → s.GroupReady g := Iff.rfl

theorem State.AxisReady.of_same {s t : State} {a : AxisIx} (h : s.AxisReady a)
    (hr : RecordStays s.axisRec[a] t.axisRec[a]) (ha : t.tables.axes[a] = s.tables.axes[a])
    (hp : ∀ p, t.pairOf a = some p → t.tables.pairs[p].poisoned = true → s.pairOf a = some p ∧
      s.tables.pairs[p].poisoned = true)
    (hx : ∀ x : ExtentIx, t.extentAxis x = some a → t.tables.extents[x].poisoned = true → s.extentAxis x = some a ∧
      s.tables.extents[x].poisoned = true) : t.AxisReady a := by
  obtain ⟨hchecked, hlost, hvalid, hclean, hpair, hextent⟩ := h
  refine ⟨hr.checked hchecked, hr.lost hlost, by rwa [ha], by rwa [ha], fun p hp' => ?_, fun x hx' => ?_⟩
  · by_contra hpois
    obtain ⟨hp0, hpois0⟩ := hp p hp' (Bool.not_eq_false _ ▸ hpois)
    exact absurd ((hpair p hp0).symm.trans hpois0) nofun
  · by_contra hpois
    obtain ⟨hx0, hpois0⟩ := hx x hx' (Bool.not_eq_false _ ▸ hpois)
    exact absurd ((hextent x hx0).symm.trans hpois0) nofun

/-- The tables' entries stay, and the axis's record. -/
theorem State.AxisReady.of_entries {s t : State} {a : AxisIx} (h : s.AxisReady a)
    (hr : RecordStays s.axisRec[a] t.axisRec[a]) (he : SameEntries s.tables t.tables) : t.AxisReady a := by
  have hpairOf : t.pairOf a = s.pairOf a := by unfold State.pairOf; rw [he.index]
  have hextent : ∀ x : ExtentIx, t.extentAxis x = s.extentAxis x := fun x => by
    unfold State.extentAxis
    rw [he.extents]
  refine h.of_same hr (by rw [he.axes]) (fun p hp hpois => ?_) fun x hx hpois => ?_
  · rw [he.pairs] at hpois
    exact ⟨hpairOf ▸ hp, hpois⟩
  · rw [he.extents] at hpois
    exact ⟨hextent x ▸ hx, hpois⟩

theorem Recedes.ready {s t : State} (h : Recedes s t) {g : GroupIx} (ht : t.armed g) (hs : s.GroupReady g) :
    t.GroupReady g := by
  obtain ⟨hidle, hvalid, hclean, hmembers⟩ := hs
  refine ⟨h.resets hidle, by rwa [h.entries.groups], by rwa [h.entries.groups], fun a ha => ?_⟩
  rw [h.entries.groupOf] at ha
  exact (hmembers a ha).of_entries (h.record a g ha ht) h.entries

/-! ## Arming -/

/-- The members that arming tests are the axes that the index gives the group (R4). -/
theorem IndexLaw.mem_memberList {s : State} (h : IndexLaw s) (hs : s.Sound) {g : GroupIx}
    (hv : s.tables.groups[g].held.valid = true) (hp : s.tables.groups[g].poisoned = false) {a : AxisIx} :
    a ∈ s.memberList g ↔ s.groupOf a = some g := by
  obtain ⟨hmembers, -⟩ := h
  obtain ⟨hgood, heq⟩ := Sound.group_held hs hp
  unfold State.memberList
  rw [if_neg (Bool.eq_false_iff.mp hp), if_pos hv, mem_axesOf, ← heq]
  exact hmembers g hgood a

theorem IndexLaw.axis_valid {s : State} (h : IndexLaw s) (hs : s.Sound) {a : AxisIx} {g : GroupIx}
    (hg : s.groupOf a = some g) (hp : s.tables.axes[a].poisoned = false) : s.tables.axes[a].held.valid = true := by
  obtain ⟨-, hvalid⟩ := h
  obtain ⟨hgood, heq⟩ := Sound.axis_held hs hp
  rw [← heq]
  exact hvalid a (by rw [hg]; rfl) hgood

/-- The entries of a member are among those that arming reads. -/
theorem mem_belongings_axis {s : State} {g : GroupIx} {a : AxisIx} (h : a ∈ s.memberList g) :
    EntryRef.axis a ∈ s.belongings g :=
  List.mem_append_left _ (List.mem_flatMap.mpr ⟨a, h, List.mem_cons_self⟩)

theorem mem_belongings_pair {s : State} {g : GroupIx} {a : AxisIx} {p : PairIx} (h : a ∈ s.memberList g)
    (hp : s.pairOf a = some p) : EntryRef.pair p ∈ s.belongings g :=
  List.mem_append_left _ (List.mem_flatMap.mpr ⟨a, h, by simp [hp]⟩)

theorem mem_belongings_extent {s : State} {g : GroupIx} {a : AxisIx} {x : ExtentIx} (hg : s.groupOf a = some g)
    (hx : s.extentAxis x = some a) : EntryRef.extent x ∈ s.belongings g := by
  refine List.mem_append_right _ (List.mem_map_of_mem ?_)
  unfold State.extentsOf
  rw [List.mem_filter]
  exact ⟨List.mem_finRange x, by simp [hx, hg]⟩

/-- What arming has tested is what the law asks (R94, R107). -/
theorem State.MayArm.ready {s : State} {g : GroupIx} (h : s.MayArm g) (hs : s.Sound) (hi : IndexLaw s) :
    s.GroupReady g := by
  have hgroup : s.tables.groups[g].poisoned = false := h.clean _ List.mem_cons_self
  have hbelongs : ∀ e ∈ s.belongings g, s.tables.isPoisoned e = false := fun e he =>
    h.clean e (List.mem_cons_of_mem _ he)
  refine ⟨h.idle, h.valid, hgroup, fun a ha => ?_⟩
  have hmem : a ∈ s.memberList g := (hi.mem_memberList hs h.valid hgroup).mpr ha
  obtain ⟨hchecked, hlost⟩ := h.members a hmem
  have haxis : s.tables.axes[a].poisoned = false := hbelongs _ (mem_belongings_axis hmem)
  exact ⟨hchecked, hlost, hi.axis_valid hs ha haxis, haxis, fun p hp => hbelongs _ (mem_belongings_pair hmem hp),
    fun x hx => hbelongs _ (mem_belongings_extent ha hx)⟩

/-! ## Writes -/

theorem storeAxis_tables (s : State) (a : AxisIx) (f : AxisFields) : (s.storeAxis a f).tables =
    { s.tables with axes := s.tables.axes.set a (.fresh f.stored) } := by
  rw [storeAxis_frame]
  rfl

/-- A write of an axis entry changes nothing that the law says of another axis. -/
theorem State.AxisReady.storeAxis {s : State} {a b : AxisIx} (h : s.AxisReady b) (hne : b ≠ a) (f : AxisFields) :
    (s.storeAxis a f).AxisReady b := by
  have hrec : (s.storeAxis a f).axisRec[b] = s.axisRec[b] := by
    rw [storeAxis_axisRec]
    exact upd_get_ne _ hne.symm _
  refine h.of_same (by rw [hrec]; exact RecordStays.refl _) (storeAxis_axes f hne) (fun p hp hpois => ?_)
    fun x hx hpois => ?_
  · unfold State.pairOf at hp
    rw [storeAxis_tables] at hp hpois
    exact ⟨hp, hpois⟩
  · unfold State.extentAxis at hx
    rw [storeAxis_tables] at hx hpois
    exact ⟨hx, hpois⟩

theorem State.AxisReady.storeGroup {s : State} {b : AxisIx} (h : s.AxisReady b) (g : GroupIx) (f : GroupFields) :
    (s.storeGroup g f).AxisReady b :=
  h.of_same (RecordStays.refl _) rfl (fun _ hp hpois => ⟨(storeGroup_pairOf s g f b).symm.trans hp, hpois⟩)
    fun _ hx hpois => ⟨hx, hpois⟩

theorem State.AxisReady.storePair {s : State} {b : AxisIx} (h : s.AxisReady b) (p : PairIx) (f : PairFields) :
    (s.storePair p f).AxisReady b := by
  refine h.of_same (RecordStays.refl _) rfl (fun q hq hpois => ?_) fun _ hx hpois => ⟨hx, hpois⟩
  have hget : (s.storePair p f).tables.pairs[q] = if p = q then .fresh f.stored else s.tables.pairs[q] :=
    set_get _ _ _ _
  rw [hget] at hpois
  have hne : p ≠ q := fun hpq => by
    rw [if_pos hpq] at hpois
    cases hpois
  rw [if_neg hne] at hpois
  rw [storePair_pairOf] at hq
  split at hq
  · exact absurd (Option.some.inj hq) hne
  · split at hq
    · cases hq
    · exact ⟨hq, hpois⟩

theorem State.AxisReady.storeExtent {s : State} {b : AxisIx} (h : s.AxisReady b) (x : ExtentIx) (f : ExtentFields) :
    (s.modTables fun t => { t with extents := t.extents.set x (.fresh f.stored) }).AxisReady b := by
  refine h.of_same (RecordStays.refl _) rfl (fun _ hp hpois => ⟨hp, hpois⟩) fun y hy hpois => ?_
  have hget : ∀ v : Stored ExtentFields, (s.tables.extents.set x v)[y] = if x = y then v else s.tables.extents[y] :=
    fun v => set_get _ _ _ _
  unfold State.extentAxis at hy ⊢
  simp only [State.modTables_tables, hget] at hy hpois
  by_cases hxy : x = y
  · rw [if_pos hxy] at hpois
    cases hpois
  · rw [if_neg hxy] at hy hpois
    exact ⟨hy, hpois⟩

theorem State.GroupReady.storeGroup {s : State} {g k : GroupIx} (h : s.GroupReady k) (hne : g ≠ k) (f : GroupFields) :
    (s.storeGroup g f).GroupReady k := by
  have hget : (s.storeGroup g f).tables.groups[k] = s.tables.groups[k] := (set_get _ _ _ _).trans (if_neg hne)
  obtain ⟨hidle, hvalid, hclean, hmembers⟩ := h
  refine ⟨hidle, by rwa [hget], by rwa [hget], fun a ha => (hmembers a ?_).storeGroup g f⟩
  rw [storeGroup_group] at ha
  split at ha
  · exact absurd (Option.some.inj ha) hne
  · split at ha
    · cases ha
    · exact ha

/-! ## The law -/

theorem ArmedLaw.unarmed {s : State} (h : ArmedLaw s) (hr : s.resets ≠ []) (g : GroupIx) : ¬ s.armed g := fun hg => by
  obtain ⟨hidle, -⟩ := h g hg
  exact hr hidle

/-- A change of g's permit, ready when the change leaves it armed. -/
theorem ArmedLaw.modPermit {s : State} (h : ArmedLaw s) {g : GroupIx} {f : Permit → Permit} (hg : s.GroupReady g) :
    ArmedLaw (s.modPermit g f) := by
  rw [armedLaw_iff] at h ⊢
  intro k hk
  by_cases hgk : g = k
  · subst hgk
    exact hg
  · exact h k ((armed_modPermit_ne hgk).mp hk)

theorem armedLaw_motionAlong : MotionAlong (fun s => s.Sound ∧ IndexLaw s) ArmedLaw where
  recedes := fun _ hs hr g hg => hr.ready hg (hs g (hr.armed hg))
  arm := fun g s ⟨hsound, hindex⟩ hs hm => hs.modPermit (hm.ready hsound hindex)
  run := fun g s _ hs hp => hs.modPermit (hs g (.inl hp))
  service := fun g s _ hs hl => hs.modPermit (hs g (.inr hl))
  storeAxis := fun a f s _ hs _ hl g hg => by
    have harmed : s.armed g := storeAxis_armed.mp hg
    obtain ⟨hidle, hvalid, hclean, hmembers⟩ := hs g harmed
    have hgroups : (s.storeAxis a f).tables.groups = s.tables.groups := by rw [storeAxis_frame]
    refine ⟨by rw [storeAxis_frame]; exact hidle, by rwa [hgroups], by rwa [hgroups], fun b hb => ?_⟩
    rw [storeAxis_groupOf] at hb
    exact State.AxisReady.storeAxis (hmembers b hb) (ne_of_locked hl hb harmed) f
  storeGroup := fun g f s _ hs _ hd k hk => by
    have hne : g ≠ k := fun hgk => State.armed.not_disarmed (s := s) hk (hgk ▸ hd)
    exact State.GroupReady.storeGroup (hs k hk) hne f
  storePair := fun p f s _ hs g hg => by
    obtain ⟨hidle, hvalid, hclean, hmembers⟩ := hs g hg
    refine ⟨hidle, hvalid, hclean, fun a ha => ?_⟩
    rw [storePair_group] at ha
    exact State.AxisReady.storePair (hmembers a ha) p f
  storeExtent := fun x f s _ hs _ g hg => by
    obtain ⟨hidle, hvalid, hclean, hmembers⟩ := hs g hg
    exact ⟨hidle, hvalid, hclean, fun a ha => State.AxisReady.storeExtent (hmembers a ha) x f⟩
  enqueueRest := fun e s _ hs _ _ _ => by
    rw [enqueue_frame]
    exact hs
  enqueuePosition := fun e s _ hs _ => by
    rw [enqueue_frame]
    exact hs
  beginReset := fun s _ hs hd g hg => by
    obtain ⟨-, hvalid, -⟩ := hs g hg
    have hsome := (validNotDisarmed_isSome s).mpr ⟨g, hvalid, State.armed.not_disarmed (s := s) hg⟩
    rw [hd] at hsome
    cases hsome
  resetBlock := fun b s _ hs hb hr g hg => absurd (armed_resetBlock hb hg).1 (hs.unarmed hr g)
  pinReset := fun pins s _ _ g hg => absurd hg (pinReset_unarmed pins s g)

/-- While no record shows an error, armed groups stay ready, along with the index that their members come from. -/
theorem armed_motionClosed : MotionClosed fun s => (s.Sound ∧ IndexLaw s) ∧ ArmedLaw s :=
  armedLaw_motionAlong.closed (indexLaw_writtenLaw.motionAlong.closed sound_motionClosed)

/-- Settles O60: arming tests all that the law asks, and whatever would take any of it back is refused while the group
is armed, or disarms it. -/
theorem armedGroupsStayChecked : Obligations.ArmedGroupsStayChecked := by
  intro s t hsound hindex hs hstep
  obtain ⟨-, harmed⟩ := armed_motionClosed.step hstep ⟨⟨hsound, hindex⟩, hs⟩
  exact harmed

end Sys2Proof.Machine
end

section
/-! PROOF. Queued motion is permitted (O59). -/

namespace Sys2Proof.Machine

/-! ## What the law asks of a setpoint -/

/-- What R51 asks of a queued POSITION setpoint. -/
def State.Permitted (s : State) (q : SetpointEntry) : Prop :=
  ∃ g : GroupIx, s.groupOf q.axis = some g ∧ s.permitState g = .live ∧
    s.tables.axes[q.axis].held.softLow.toInt ≤ q.target.toInt ∧
    q.target.toInt ≤ s.tables.axes[q.axis].held.softHigh.toInt ∧
    ∀ x : ExtentIx, s.liveExtent x = true → s.extentAxis x = some q.axis →
      travelOverlaps q.reference.toInt q.target.toInt s.tables.extents[x].held.low.toInt
        s.tables.extents[x].held.high.toInt = true →
      s.zoneOwnedBy s.tables.extents[x].held.zone (some g) = true

theorem positionLaw_iff {s : State} : PositionLaw s ↔
    ∀ sg : SegIx, ∀ q ∈ s.egress.setpoints[sg], q.mode = .position → s.Permitted q := Iff.rfl

theorem State.MayMove.permitted {s : State} {e : SetpointEntry} (h : s.MayMove e) : s.Permitted e := by
  obtain ⟨g, hg, hl⟩ := h.live
  have howned := h.owned
  rw [hg] at howned
  exact ⟨g, hg, hl, h.low, h.high, howned⟩

/-- The axis stays in its live group, its entry and the extents stay, and the group keeps its zones. -/
theorem State.Permitted.of_same {s t : State} {q : SetpointEntry} (h : s.Permitted q)
    (ha : t.tables.axes[q.axis] = s.tables.axes[q.axis]) (hx : t.tables.extents = s.tables.extents)
    (hz : t.zones = s.zones) (hg : ∀ g, s.groupOf q.axis = some g → s.permitState g = .live →
      t.groupOf q.axis = some g ∧ t.permitState g = .live) : t.Permitted q := by
  obtain ⟨g, hgroup, hlive, hlow, hhigh, howned⟩ := h
  obtain ⟨hgroup', hlive'⟩ := hg g hgroup hlive
  refine ⟨g, hgroup', hlive', by rwa [ha], by rwa [ha], fun x => ?_⟩
  unfold State.liveExtent State.extentAxis State.zoneOwnedBy
  rw [hx, hz]
  exact howned x

/-! ## The changes of zones and extents -/

/-- A write of an extent that names the axis of a live group is refused, so the new one is none of its own. -/
theorem State.Permitted.storeExtent {s : State} {q : SetpointEntry} (h : s.Permitted q) {x : ExtentIx}
    {f : ExtentFields} (hlock : f.valid = true → s.lockedAxis f.axis = false) :
    (s.modTables fun t => { t with extents := t.extents.set x (.fresh f.stored) }).Permitted q := by
  obtain ⟨g, hgroup, hlive, hlow, hhigh, howned⟩ := h
  refine ⟨g, hgroup, hlive, hlow, hhigh, fun y => ?_⟩
  have hget : (s.tables.extents.set x (.fresh f.stored))[y] =
      if x = y then .fresh f.stored else s.tables.extents[y] := set_get _ _ _ _
  unfold State.liveExtent State.extentAxis
  simp only [State.modTables_tables, hget]
  by_cases hxy : x = y
  · simp only [if_pos hxy]
    intro hl haxis
    exfalso
    have hvalid : f.valid = true := by
      by_contra hv
      simp [ExtentFields.stored, hv, Stored.fresh, ExtentFields.default] at hl
    have hseen : axisOfByte f.axis = some q.axis := by
      simpa [Stored.seen, Stored.fresh, ExtentFields.stored, hvalid] using haxis
    have hfree := hlock hvalid
    simp [State.lockedAxis, hseen, hgroup, State.lockedGroup, hlive] at hfree
  · simp only [if_neg hxy]
    exact howned y

theorem zoneOwnedBy_iff (s : State) (b : Byte) (g : GroupIx) :
    s.zoneOwnedBy b (some g) = true ↔ ∃ z : ZoneIx, ixOfByte 16 b = some z ∧ s.zones[z] = some g := by
  unfold State.zoneOwnedBy
  cases ixOfByte 16 b with
  | none => simp
  | some z => simp

/-- Claiming a free zone takes none from its owner. -/
theorem State.Permitted.claim {s : State} {q : SetpointEntry} (h : s.Permitted q) {z : ZoneIx} (g : GroupIx)
    (hz : s.zones[z] = none) : State.Permitted { s with zones := s.zones.set z (some g) } q := by
  obtain ⟨k, hgroup, hlive, hlow, hhigh, howned⟩ := h
  refine ⟨k, hgroup, hlive, hlow, hhigh, fun x hl haxis hover => ?_⟩
  obtain ⟨y, hy, hyk⟩ := (zoneOwnedBy_iff s _ k).mp (howned x hl haxis hover)
  refine (zoneOwnedBy_iff _ _ k).mpr ⟨y, hy, ?_⟩
  have hne : z ≠ y := fun hzy => by
    subst hzy
    cases hz.symm.trans hyk
  exact (set_get _ _ _ _).trans ((if_neg hne).trans hyk)

/-- Releasing a zone takes from the queues what travels into it. -/
theorem State.Permitted.release {s : State} {q : SetpointEntry} (h : s.Permitted q) (hm : q.mode = .position)
    {z : ZoneIx} {g : GroupIx} (hz : s.zones[z] = some g) (hq : s.travelsInto z g q = false)
    (v : Vector (List SetpointEntry) 4) :
    State.Permitted { s with zones := s.zones.set z none, egress := { s.egress with setpoints := v } } q := by
  obtain ⟨k, hgroup, hlive, hlow, hhigh, howned⟩ := h
  refine ⟨k, hgroup, hlive, hlow, hhigh, fun x hl haxis hover => ?_⟩
  obtain ⟨y, hy, hyk⟩ := (zoneOwnedBy_iff s _ k).mp (howned x hl haxis hover)
  refine (zoneOwnedBy_iff _ _ k).mpr ⟨y, hy, ?_⟩
  have hne : z ≠ y := fun hzy => by
    subst hzy
    obtain rfl : g = k := Option.some.inj (hz.symm.trans hyk)
    have hinto : s.travelsInto z g q = true := by
      refine (travelsInto_iff s z g q).mpr ⟨hm, hgroup, x, hl, haxis, ?_, ?_⟩
      · exact (ixOfByte_eq_some_iff (by decide) _ _).mp hy
      · simpa [travelOverlaps] using hover
    exact absurd (hq.symm.trans hinto) nofun
  exact (set_get _ _ _ _).trans ((if_neg hne).trans hyk)

/-! ## The law -/

theorem PositionLaw.permitted {s : State} (h : PositionLaw s) {sg : SegIx} {q : SetpointEntry}
    (hq : q ∈ s.egress.setpoints[sg]) (hm : q.mode = .position) : s.Permitted q := positionLaw_iff.mp h sg q hq hm

/-- Each entry that waits in the end waited before, and is still permitted. -/
theorem PositionLaw.of_shrinks {s t : State} (h : PositionLaw s) (hq : Shrinks s t)
    (ht : ∀ (sg : SegIx), ∀ q ∈ t.egress.setpoints[sg], q.mode = .position → s.Permitted q → t.Permitted q) :
    PositionLaw t :=
  fun sg q hm hp => ht sg q hm hp (h.permitted ((hq.setpoints sg).subset hm) hp)

/-- A change of g's permit that does not take a group out of LIVE. -/
theorem PositionLaw.modPermit {s : State} (h : PositionLaw s) {g : GroupIx} {f : Permit → Permit}
    (hf : s.permitState g = .live → (f s.permits[g]).state = .live) : PositionLaw (s.modPermit g f) := by
  refine h.of_shrinks (Shrinks.refl s) fun sg q _ _ hp => hp.of_same rfl rfl rfl fun k hk hl => ⟨hk, ?_⟩
  rw [modPermit_permitState]
  split
  · next hgk =>
    subst hgk
    exact hf hl
  · exact hl

theorem PositionLaw.enqueue {s : State} (h : PositionLaw s) {e : SetpointEntry}
    (he : e.mode = .position → s.Permitted e) : PositionLaw (s.enqueue e) := by
  intro sg q hq hm
  have hp : s.Permitted q := by
    rcases mem_enqueue hq with hq | ⟨rfl, -⟩
    · exact h.permitted hq hm
    · exact he hm
  rw [enqueue_frame]
  exact hp

/-- While a soft reset is under way no group is LIVE, so no motion waits. -/
theorem PositionLaw.unarmed {s : State} (h : PositionLaw s) (ha : ∀ g, ¬ s.armed g) {sg : SegIx} {q : SetpointEntry}
    (hq : q ∈ s.egress.setpoints[sg]) : q.mode ≠ .position := fun hm => by
  obtain ⟨g, -, hlive, -⟩ := h.permitted hq hm
  exact ha g (.inr hlive)

theorem storeGroup_keeps_group {s : State} {g k : GroupIx} {f : GroupFields} {a : AxisIx} (hok : s.groupWriteOk g f)
    (hne : g ≠ k) (ha : s.groupOf a = some k) : (s.storeGroup g f).groupOf a = some k := by
  have hother : s.groupOf a ≠ some g := fun hg => hne (Option.some.inj (hg.symm.trans ha))
  rw [storeGroup_group, if_neg, if_neg hother]
  · exact ha
  · rintro ⟨hv, hmem⟩
    obtain ⟨-, -, -, hfree⟩ := hok hv
    rcases hfree a hmem with hnone | hsame
    · cases hnone.symm.trans ha
    · exact hother hsame

theorem positionLaw_motionAlong :
    MotionAlong (fun s => (s.Sound ∧ IndexLaw s) ∧ ArmedLaw s) PositionLaw where
  recedes := fun {s t} _ hs hr => hs.of_shrinks hr.queues fun sg q hq hm hp =>
    hp.of_same (by rw [hr.entries.axes]) hr.entries.extents hr.zones fun g hg hl => by
      have hgroup : t.groupOf q.axis = some g := (hr.entries.groupOf _).trans hg
      refine ⟨hgroup, ?_⟩
      rcases hr.permit g with hstays | ⟨-, hmotion⟩
      · exact hstays.state.trans hl
      · exact absurd hgroup (hmotion hl sg q hq hm)
  arm := fun g s _ hs hm => hs.modPermit fun hl => absurd (hm.disarmed.symm.trans hl) nofun
  run := fun g s _ hs _ => hs.modPermit fun _ => rfl
  service := fun g s _ hs hl => hs.modPermit fun _ => hl
  storeAxis := fun a f s _ hs _ _ => hs.of_shrinks (storeAxis_shrinks s a f) fun sg q hq _ hp =>
    hp.of_same (storeAxis_axes f (storeAxis_setpoints_axis hq)) (by rw [storeAxis_tables]) (by rw [storeAxis_frame])
      fun g hg hl => by
        refine ⟨(storeAxis_groupOf s a f _).trans hg, ?_⟩
        unfold State.permitState
        rw [storeAxis_permits]
        exact hl
  storeGroup := fun g f s _ hs hok hd => hs.of_shrinks (Shrinks.refl s) fun sg q _ _ hp =>
    hp.of_same rfl rfl rfl fun k hk hl => by
      have hne : g ≠ k := fun hgk => by
        subst hgk
        cases hd.symm.trans hl
      exact ⟨storeGroup_keeps_group hok hne hk, hl⟩
  storePair := fun p f s _ hs => hs.of_shrinks (Shrinks.refl s) fun sg q _ _ hp =>
    hp.of_same rfl rfl rfl fun g hg hl => ⟨(storePair_group s p f _).trans hg, hl⟩
  storeExtent := fun x f s _ hs hlock => hs.of_shrinks (Shrinks.refl s) fun sg q _ _ hp => hp.storeExtent hlock
  claim := fun z g s _ hs hz => hs.of_shrinks (Shrinks.refl s) fun sg q _ _ hp => hp.claim g hz
  release := fun z g s _ hs hz =>
    hs.of_shrinks ⟨fun sg => map_filter_sublist _ _ sg, fun _ => .refl _⟩ fun sg q hq hm hp => by
      have hget : (s.egress.setpoints.map (List.filter fun e => !(s.travelsInto z g e)))[sg] =
          s.egress.setpoints[sg].filter fun e => !(s.travelsInto z g e) := map_get _ _ sg
      dsimp only at hq
      rw [hget, List.mem_filter] at hq
      obtain ⟨-, hkept⟩ := hq
      exact hp.release hm hz (by simpa using hkept) _
  enqueueRest := fun e s _ hs hm _ _ => hs.enqueue fun hp => absurd hp hm
  enqueuePosition := fun e s _ hs hm => hs.enqueue fun _ => hm.permitted
  resetBlock := fun b s ⟨_, harmed⟩ hs hb hr => hs.of_shrinks (resetBlock_shrinks hb s) fun sg q hq hm _ =>
    absurd hm (hs.unarmed (harmed.unarmed hr) (((resetBlock_shrinks hb s).setpoints sg).subset hq))
  pinReset := fun _ _ _ _ => reset_positionLaw

/-- Settles O59: while no record shows an error, a setpoint joins a queue only as R51 asks, and whatever would change
that is refused while its group is LIVE, or takes it from the queue. -/
theorem queuedMotionIsPermitted : Obligations.QueuedMotionIsPermitted := by
  intro s t hsound hindex harmed hs hstep
  obtain ⟨-, hposition⟩ :=
    (positionLaw_motionAlong.closed armed_motionClosed).step hstep ⟨⟨⟨hsound, hindex⟩, harmed⟩, hs⟩
  exact hposition

end Sys2Proof.Machine
end
